-- ==== Sys2Proof/Word.lean ====
section
/-! DEFINITION. The word types of the block: the 32-bit bus word, the symbol byte, the 2-bit trellis state index, the 17-bit
counters and metrics, and the small records of one value per trellis state and of three taps (spec/10_state.md R14, R16). -/

namespace Sys2Proof

/-- The 32-bit data word of the host bus and of every register (R7, R41). -/
abbrev Word := BitVec 32

/-- One symbol byte (R7, R62). -/
abbrev Byte := BitVec 8

/-- The 17-bit width of LENR, OUTLENR, T, NSTEP and each PMW entry (R14). -/
abbrev Count := BitVec 17

/-- A trellis state as its index 2*R1 + R2: bit 1 is `R1`, bit 0 is `R2` (R16). -/
abbrev TrellisState := BitVec 2

/-- One value for each of the four trellis states, named by its string `R1R2` (R16). -/
structure PerState (α : Type) where
  s00 : α
  s01 : α
  s10 : α
  s11 : α
deriving DecidableEq, Repr, Inhabited

/-- The three taps of one generator: g0 multiplies the current input bit, g1 multiplies `R1`, g2 multiplies `R2` (R19). -/
structure Taps where
  g0 : Bool
  g1 : Bool
  g2 : Bool
deriving DecidableEq, Repr, Inhabited

end Sys2Proof
end

