-- ==== Sys2Proof/Syntax.lean ====
section
/-! DEFINITION. The commands of the block: one constructor per row of spec/opcode_table.json (spec/30_encoding.md R59). -/

namespace Sys2Proof

/-- A command word as the sequencer sees it: its OP field, CMD[3:0]. Bits 31:4 are never read (R58, R60), so no constructor
holds them. A reserved row keeps its OP value, since the row's pattern leaves bits of OP open. -/
inductive Instr where
  /-- OP 0x0 (R72). -/
  | nop
  /-- OP 0x1 (R73). -/
  | encode
  /-- OP 0x2 (R73). -/
  | decode
  /-- OP 0x3 (R78). -/
  | clear
  /-- OP 0x4 to 0x7, reserved (R79). -/
  | illegal47 (op : BitVec 4)
  /-- OP 0x8 to 0xF, reserved (R79). -/
  | illegal8F (op : BitVec 4)
deriving DecidableEq, Repr

end Sys2Proof
end

