-- ==== Sys2Proof/WellFormed.lean ====
section
/-! DEFINITION. Which commands are well-formed: a reserved command's OP lies in the range of its row of the command map
(spec/30_encoding.md R59). -/

namespace Sys2Proof

/-- The OP of a reserved row lies in the row's range; the other rows have no operand to check (R59). -/
def Instr.wellFormed : Instr → Bool
  | .nop => true
  | .encode => true
  | .decode => true
  | .clear => true
  | .illegal47 op => decide (4 ≤ op.toNat) && decide (op.toNat ≤ 7)
  | .illegal8F op => decide (8 ≤ op.toNat)

end Sys2Proof
end

