-- ==== Sys2Proof/Decode.lean ====
section
/-! DEFINITION. The little-endian byte order of the bus (spec/20_memory.md R44), the command map as a table of mask and pattern,
the decoder built on it, and the encoder (spec/30_encoding.md R58 to R61). -/

namespace Sys2Proof

/-- The first `n` bytes of a word, lowest address first: byte i is bits 8*i+7 down to 8*i (R44). -/
def leBytes : Nat → Word → List Byte
  | 0, _ => []
  | n + 1, w => w.setWidth 8 :: leBytes n (w >>> 8)

/-- The word that bytes at rising addresses make: the sum of byte i shifted left by 8*i (R44). -/
def ofLeBytes : List Byte → Word
  | [] => 0
  | b :: rest => b.setWidth 32 ||| (ofLeBytes rest <<< 8)

/-- One row of the command map (R59): a word is the row's when `word & mask = pattern`; `make` reads the OP field. -/
structure CommandRow where
  mnemonic : String
  pattern : Word
  mask : Word
  make : BitVec 4 → Instr

/-- The command map of R59, row by row. -/
def commandMap : List CommandRow :=
  [ { mnemonic := "NOP",         pattern := 0x00000000, mask := 0x0000000F, make := fun _ => .nop },
    { mnemonic := "ENCODE",      pattern := 0x00000001, mask := 0x0000000F, make := fun _ => .encode },
    { mnemonic := "DECODE",      pattern := 0x00000002, mask := 0x0000000F, make := fun _ => .decode },
    { mnemonic := "CLEAR",       pattern := 0x00000003, mask := 0x0000000F, make := fun _ => .clear },
    { mnemonic := "ILLEGAL_4_7", pattern := 0x00000004, mask := 0x0000000C, make := fun op => .illegal47 op },
    { mnemonic := "ILLEGAL_8_F", pattern := 0x00000008, mask := 0x00000008, make := fun op => .illegal8F op } ]

/-- Whether a word is a row's (R59). -/
def CommandRow.accepts (r : CommandRow) (w : Word) : Bool := decide (w &&& r.mask = r.pattern)

/-- The OP field, CMD[3:0] (R58). -/
def opField (w : Word) : BitVec 4 := w.extractLsb' 0 4

/-- Why bytes are no command. A command is exactly four bytes (R58, R61). -/
inductive DecodeError where
  /-- Fewer than four bytes: CMD takes only 4-byte writes (R58). -/
  | truncated
  /-- More than four bytes: no command is longer (R61). -/
  | trailing
  /-- No row of the command map accepts the word. No word does this (R59). -/
  | noRow
deriving DecidableEq, Repr

/-- The command a word stands for: the row that accepts it (R59). -/
def decodeWord (w : Word) : Except DecodeError Instr :=
  match commandMap.find? (fun r => r.accepts w) with
  | some r => .ok (r.make (opField w))
  | none => .error .noRow

/-- The command that the bytes of a CMD write stand for, lowest address first (R44, R58). -/
def decode : List Byte → Except DecodeError Instr
  | [] => .error .truncated
  | [_] => .error .truncated
  | [_, _] => .error .truncated
  | [_, _, _] => .error .truncated
  | [b0, b1, b2, b3] => decodeWord (ofLeBytes [b0, b1, b2, b3])
  | _ :: _ :: _ :: _ :: _ :: _ => .error .trailing

/-- The OP value of a command (R59). -/
def Instr.op : Instr → BitVec 4
  | .nop => 0x0
  | .encode => 0x1
  | .decode => 0x2
  | .clear => 0x3
  | .illegal47 op => op
  | .illegal8F op => op

/-- The word software writes to CMD for a command: OP in bits 3:0 and zeros above ("software should write 0", R58). -/
def encode (i : Instr) : Word := (0 : BitVec 28) ++ i.op

/-- The four bytes of a command as the bus carries them (R44). -/
def encodeBytes (i : Instr) : List Byte := leBytes 4 (encode i)

/-- The word of a row of spec/opcode_table.json given as a number: its low `nbits` bits, zeros above. -/
def tableWord (nbits w : Nat) : Word := BitVec.ofNat 32 (w % 2 ^ nbits)

/-- What the decoder reads from an opcode-table word: the word laid out in the bus's byte order and given to `decode`. -/
def decodeTableWord (nbits w : Nat) : Option Instr :=
  match decode (leBytes 4 (tableWord nbits w)) with
  | .ok i => some i
  | .error _ => none

end Sys2Proof
end

