-- ==== Sys2Proof/Config.lean ====
section
/-! DEFINITION. What an implementation fixes (the OPEN parameters N_MAX and BASE, spec/00_scope.md R7) and the values the spec
leaves free (the RAM contents after reset, R15, and the reads while BUSY, R38). -/

namespace Sys2Proof

/-- The OPEN parameters of the block (R7, R42). A model argument: State carries them and no step writes them
(DESIGN CHOICE, log 1). -/
structure Params where
  /-- N_MAX: the most input bits of an ENCODE frame and the most decoded bits of a DECODE frame (R7). -/
  nMax : Nat
  /-- BASE: where the block sits in the system's address space (R42). -/
  base : Nat
deriving DecidableEq, Repr

/-- The range the spec gives N_MAX: 1 to 32768 (R7). -/
def Params.ok (p : Params) : Bool := decide (1 ≤ p.nMax) && decide (p.nMax ≤ 32768)

/-- The reference values of spec/95_test_vectors.md: N_MAX = 64, BASE = 0 (DESIGN CHOICE, log 1). -/
def Params.reference : Params := { nMax := 64, base := 0 }

/-- Free value: byte `i` of IN as reset number `era` left it (R15, U1; log 4). -/
opaque Config.freeIn (era i : Nat) : Byte

/-- Free value: byte `i` of OUT as reset number `era` left it (R15, U1, U3; log 4). -/
opaque Config.freeOut (era i : Nat) : Byte

/-- Free value: the four decision bits of traceback word `t` as reset number `era` left them (R15, U1; log 4). -/
opaque Config.freeTbm (era t : Nat) : PerState Bool

/-- Free value: what the `k`-th unspecified read while BUSY returns (R38, U2; log 5). -/
opaque Config.freeRead (k : Nat) : Word

end Sys2Proof
end

