-- ==== Sys2Proof/Machine/State.lean ====
section
/-! DEFINITION. The state of the block (spec/10_state.md R14), the inputs the host gives it (spec/20_memory.md R41,
spec/70_reset_and_hazards.md R126), why a step can stop, and the state right after reset (R126). -/

namespace Sys2Proof.Machine

/-- The step kind the sequencer performs next (R14, R23). -/
inductive Phase where
  | idle
  | check
  | enc
  | acs
  | sel
  | tb
deriving DecidableEq, Repr

/-- The command in progress (R14, R23). -/
inductive Operation where
  | none
  | encode
  | decode
deriving DecidableEq, Repr

/-- The result of the last completed command; codes 5 to 7 are never produced (R27, R111). -/
inductive ErrCode where
  | ok
  | invalidPolynomial
  | invalidInput
  | illegalCmd
  | lengthRange
deriving DecidableEq, Repr

/-- The width of a bus access: 1, 2 or 4 bytes (R41). -/
inductive AccessSize where
  | byte
  | half
  | word
deriving DecidableEq, Repr

/-- A read, or a write with its data (R41). A narrow write's data stands in the low bytes (R44; log 13). -/
inductive AccessKind where
  | read
  | write (data : Word)
deriving DecidableEq, Repr

/-- One host access: a system byte address, a width and a kind (R41). -/
structure Access where
  addr : Nat
  size : AccessSize
  kind : AccessKind
deriving DecidableEq, Repr

/-- OKAY or ERROR (R41, R46). -/
inductive BusStatus where
  | okay
  | error
deriving DecidableEq, Repr

/-- What the host gets back from an access. The spec gives a write no data; the model answers 0 (log 3). -/
structure BusResponse where
  status : BusStatus
  data : Word
deriving DecidableEq, Repr

/-- What the outside world does at one instant between two sequencer steps (R41). -/
inductive HostInput where
  /-- The host makes one bus access (R41). -/
  | access (a : Access)
  /-- The reset input takes this level (R126). -/
  | rst (level : Bool)
  /-- The host does nothing: the block has its turn. -/
  | advance
deriving DecidableEq, Repr

/-- A written-entries memory: an unlisted address has not been written since reset. -/
abbrev Memory := List Host.Cell

/-- The traceback memory: the words written since reset (R21). -/
abbrev TraceMemory := List (Nat × PerState Bool)

/-- Every piece of state R14 gives the block, then its inputs and parameters and the model's own counters (INVENTORY.md). -/
structure State where
  /-- `R1`, the previous input bit (R18). -/
  r1 : Bool
  /-- `R2`, the bit two before (R18). -/
  r2 : Bool
  /-- TAP1, latched taps of G1 (R19). -/
  tap1 : Taps
  /-- TAP2, latched taps of G2 (R19). -/
  tap2 : Taps
  /-- PMV, path metric valid; false is INF (R20). -/
  pmv : PerState Bool
  /-- PMW, path metric value (R20). -/
  pmw : PerState Count
  /-- TBM, traceback decision words written since reset (R21). -/
  tbm : TraceMemory
  /-- TBS, traceback state pointer (R22). -/
  tbs : TrellisState
  /-- BESTR, the state the last selection chose (R22). -/
  bestr : TrellisState
  /-- PHASE (R23). -/
  phase : Phase
  /-- OPR (R23). -/
  opr : Operation
  /-- T, the step counter (R23). -/
  t : Count
  /-- NSTEP, the trellis steps of the frame (R23). -/
  nstep : Count
  /-- STATUS.DONE (R27). -/
  done : Bool
  /-- STATUS.ERR (R27). -/
  err : ErrCode
  /-- STATUS.OVR (R27). -/
  ovr : Bool
  /-- CTRL.IRQ_EN (R29). -/
  irqEn : Bool
  /-- LENR (R30). -/
  lenr : Count
  /-- POLY1R (R31). -/
  poly1r : BitVec 28
  /-- POLY2R (R31). -/
  poly2r : BitVec 28
  /-- OUTLENR (R32). -/
  outlenr : Count
  /-- IN, by index (R24). -/
  inBuf : Memory
  /-- OUT, by index (R25). -/
  outBuf : Memory
  /-- The OPEN parameters N_MAX and BASE (R7, R42; log 1). -/
  params : Params
  /-- The level of the reset input (R126). -/
  rst : Bool
  /-- The host's actions still to come, oldest first (R41; DESIGN CHOICE, log 2). -/
  inputs : List HostInput
  /-- The response to the last access (R41; DESIGN CHOICE, log 3). -/
  resp : Option BusResponse
  /-- The model's own: which reset the unwritten RAM contents date from (R15; DESIGN CHOICE, log 4). -/
  era : Nat
  /-- The model's own: how many unspecified reads have been answered (R38; DESIGN CHOICE, log 5). -/
  draws : Nat
deriving DecidableEq, Repr

/-- Where no rule of the spec gives the sequencer a step. The hardware reaches none of these states (R70, R113), nor does the
model from reset (Safety.lean). Every one is raised by the sequencer's turn, never by a command's issue. All safe: the model
stops where the spec says nothing (DESIGN CHOICE, log 9). -/
inductive Fault where
  /-- A phase other than IDLE with no command in progress (raised by CHECK; safe). -/
  | noOperation
  /-- ENC or ACS with T > NSTEP (raised by those phases; safe). -/
  | stepBeyondFrame
  /-- A step's index lies outside IN, OUT or TBM (raised by ENC, ACS and TB; safe). -/
  | indexOutOfBuffer
  /-- A datapath step reads a byte for which `bit` is not defined (raised by ENC and ACS; safe). -/
  | nonBinarySymbol
  /-- A new path metric does not fit 17 bits (raised by ACS; safe). -/
  | metricOverflow
  /-- The final selection finds no finite metric (raised by SEL; safe). -/
  | noFiniteMetric
deriving DecidableEq, Repr

/-- Why the model has no meaning to run. -/
inductive Refusal where
  /-- Raised by an arm of `exec` whose command has no meaning yet; no arm is so. Safe. -/
  | notModelled (mnemonic : String)
  /-- Raised by a CMD write whose bytes no row of the command map accepts; R59 says there are none. Safe. -/
  | undecodableCommand
deriving DecidableEq, Repr

/-- The state the reset event leaves for given parameters, with nothing written to any memory (R126, R15). -/
def State.resetWith (p : Params) : State where
  r1 := false
  r2 := false
  tap1 := { g0 := false, g1 := false, g2 := false }
  tap2 := { g0 := false, g1 := false, g2 := false }
  pmv := { s00 := false, s01 := false, s10 := false, s11 := false }
  pmw := { s00 := 0, s01 := 0, s10 := 0, s11 := 0 }
  tbm := []
  tbs := 0
  bestr := 0
  phase := .idle
  opr := .none
  t := 0
  nstep := 0
  done := false
  err := .ok
  ovr := false
  irqEn := false
  lenr := 0
  poly1r := 0x3313131
  poly2r := 0x3313031
  outlenr := 0
  inBuf := []
  outBuf := []
  params := p
  rst := false
  inputs := []
  resp := none
  era := 0
  draws := 0

/-- The machine right after reset, with the spec's reference parameters (R126; log 1). -/
def State.reset : State := State.resetWith Params.reference

end Sys2Proof.Machine
end

