-- ==== Sys2Proof/Machine/Flags.lean ====
section
/-! DEFINITION. The STATUS flags: what BUSY and `irq` are, how STATUS reads, and every way DONE, ERR and OVR are written
(spec/10_state.md R27, R28, spec/60_exceptions.md R111, R118). -/

namespace Sys2Proof.Machine

/-- BUSY: PHASE is not IDLE (R14, R27). -/
def State.busy (s : State) : Bool := decide (s.phase ≠ .idle)

/-- The interrupt output, a level: IRQ_EN & DONE (R118). -/
def State.irq (s : State) : Bool := s.irqEn && s.done

/-- The 3-bit code of a command outcome (R111). -/
def errorCode : ErrCode → BitVec 3
  | .ok => 0
  | .invalidPolynomial => 1
  | .invalidInput => 2
  | .illegalCmd => 3
  | .lengthRange => 4

/-- STATUS as the host reads it: OVR in bit 8, ERR in bits 6:4, DONE in bit 1, BUSY in bit 0, zeros elsewhere (R27). -/
def State.statusWord (s : State) : Word :=
  (0 : BitVec 23) ++ BitVec.ofBool s.ovr ++ (0 : BitVec 1) ++ errorCode s.err ++ (0 : BitVec 2) ++ BitVec.ofBool s.done ++
    BitVec.ofBool s.busy

/-- The flags at the start of ENCODE or DECODE: DONE 0, ERR 0, OVR kept (R73, R28). -/
def State.withStartFlags (s : State) : State := { s with done := false, err := .ok }

/-- The flags at a completion: DONE 1, ERR the result, OVR kept (R76, R79, R115, R28). -/
def State.withCompletionFlags (e : ErrCode) (s : State) : State := { s with done := true, err := e }

/-- The flags after CLEAR: DONE, ERR and OVR 0 (R78, R28). -/
def State.withClearedFlags (s : State) : State := { s with done := false, err := .ok, ovr := false }

/-- A host write dropped while BUSY sets OVR and changes nothing else (R49, R28). -/
def State.withOverrun (s : State) : State := { s with ovr := true }

end Sys2Proof.Machine
end

