-- ==== Sys2Proof/Machine/Ops.lean ====
section
/-! DEFINITION. The named operations the meanings share: the written-entries memories and the buffers built on them
(spec/10_state.md R15, R21, R24, R25), one value per trellis state (R16, R17), starting and ending a command
(spec/40_commands.md R73, R76, spec/60_exceptions.md R115), CLEAR's writes (R78) and the reset event
(spec/70_reset_and_hazards.md R126). -/

namespace Sys2Proof.Machine

/-! ### Written-entries memories -/

/-- The entry at a key; `none` where the key is not listed, that is, not written since reset. -/
def sparseLookup {β : Type} : List (Nat × β) → Nat → Option β
  | [], _ => none
  | (a, v) :: m, k => if k = a then some v else sparseLookup m k

/-- Write one entry, keeping the keys strictly rising. -/
def sparseInsert {β : Type} : List (Nat × β) → Nat → β → List (Nat × β)
  | [], k, v => [(k, v)]
  | (a, w) :: m, k, v =>
    if k < a then (k, v) :: (a, w) :: m
    else if k = a then (k, v) :: m
    else (a, w) :: sparseInsert m k v

/-- The canonical form: keys strictly rising. -/
def sparseRising {β : Type} : List (Nat × β) → Bool
  | [] => true
  | [_] => true
  | (a, _) :: (b, w) :: m => decide (a < b) && sparseRising ((b, w) :: m)

/-- Every key lies below a bound. -/
def sparseBelow {β : Type} (n : Nat) (m : List (Nat × β)) : Bool := m.all fun c => decide (c.1 < n)

/-- What an unlisted address of a buffer holds: nothing written since reset. No entry equals it, since an entry is a byte.
The machine reads such an address as a free value (`State.inByte`, `State.outByte`; R15, log 4). -/
def Memory.unlisted : Option Byte := none

/-- What a buffer holds at an index. -/
def Memory.lookup (m : Memory) (i : Nat) : Option Byte :=
  match sparseLookup m i with
  | some v => some v
  | none => Memory.unlisted

/-- Write one byte of a buffer. -/
def Memory.insert (m : Memory) (i : Nat) (v : Byte) : Memory := sparseInsert m i v

/-- Write bytes at rising indexes (R44). -/
def Memory.insertBytes (m : Memory) (i : Nat) : List Byte → Memory
  | [] => m
  | v :: vs => Memory.insertBytes (Memory.insert m i v) (i + 1) vs

/-- A buffer is in its one canonical form. -/
def Memory.wf (m : Memory) : Bool := sparseRising m

/-! ### Buffers of the block -/

/-- IN[i]: the byte written last, or the free value reset left (R24, R15). -/
def State.inByte (s : State) (i : Nat) : Byte := (Memory.lookup s.inBuf i).getD (Config.freeIn s.era i)

/-- OUT[i]: the byte written last, or the free value reset left (R25, R15). -/
def State.outByte (s : State) (i : Nat) : Byte := (Memory.lookup s.outBuf i).getD (Config.freeOut s.era i)

/-- TBM[t]: the decision word written last, or the free value reset left (R21, R15). -/
def State.tbmWord (s : State) (t : Nat) : PerState Bool := (sparseLookup s.tbm t).getD (Config.freeTbm s.era t)

/-- OUT[i] <- v (R25). -/
def State.writeOut (i : Nat) (v : Byte) (s : State) : State := { s with outBuf := Memory.insert s.outBuf i v }

/-- TBM[t] <- w (R21). -/
def State.writeTbm (t : Nat) (w : PerState Bool) (s : State) : State := { s with tbm := sparseInsert s.tbm t w }

/-! ### Trellis states -/

/-- `R1` of a state index: bit 1 (R16). -/
def trellisR1 (s : TrellisState) : Bool := s.getLsbD 1

/-- `R2` of a state index: bit 0 (R16). -/
def trellisR2 (s : TrellisState) : Bool := s.getLsbD 0

/-- The index 2*R1 + R2 of a pair of bits (R16). -/
def trellisState (b1 b2 : Bool) : TrellisState := BitVec.ofBool b1 ++ BitVec.ofBool b2

/-- The successor of a state on an input bit: (b, R1), index 2*b + s[1] (R17). -/
def successor (s : TrellisState) (b : Bool) : TrellisState := trellisState b (trellisR1 s)

/-- A predecessor of a state: index 2*d[0] + r, for r its `R2` bit (R17, R96). -/
def predecessor (d : TrellisState) (r : Bool) : TrellisState := trellisState (trellisR2 d) r

/-- The four states in the order 00, 01, 10, 11 (R16). -/
def trellisStates : List TrellisState := [0, 1, 2, 3]

/-- The entry of one trellis state. -/
def atState {α : Type} (p : PerState α) (d : TrellisState) : α :=
  if trellisR1 d then (if trellisR2 d then p.s11 else p.s10) else (if trellisR2 d then p.s01 else p.s00)

/-- All four entries from a rule for each state. -/
def perState {α : Type} (f : TrellisState → α) : PerState α := { s00 := f 0, s01 := f 1, s10 := f 2, s11 := f 3 }

/-- The encoder's state index, 2*R1 + R2 (R16, R33). -/
def State.encState (s : State) : TrellisState := trellisState s.r1 s.r2

/-! ### Starting and ending a command -/

/-- A command's issue: dropped with OVR set while BUSY, its effect otherwise (R69, R49, R70). -/
def issueCommand (effect : State → State) (s : State) : Host.Outcome State Fault Refusal :=
  if s.busy then .next s.withOverrun else .next (effect s)

/-- ENCODE or DECODE starts (R73). -/
def startCommand (op : Operation) (s : State) : State :=
  { s.withStartFlags with opr := op, phase := .check, t := 0 }

/-- Error completion, the block's form of taking an exception: `raise Error(code)` (R115). There is no return from it (R116). -/
def raiseError (code : ErrCode) (s : State) : State :=
  { s.withCompletionFlags code with phase := .idle, opr := .none, outlenr := 0 }

/-- An illegal command completes at once (R79). -/
def completeIllegal (s : State) : State := { s.withCompletionFlags .illegalCmd with outlenr := 0 }

/-- Successful completion: OUTLENR is 2*NSTEP for ENCODE and NSTEP for DECODE (R76). -/
def completeCommand (s : State) : State :=
  { s.withCompletionFlags .ok with
    phase := .idle
    opr := .none
    outlenr := if s.opr = .encode then 2 * s.nstep else s.nstep }

/-- What CLEAR writes (R78). -/
def clearResults (s : State) : State :=
  { s.withClearedFlags with
    outlenr := 0
    r1 := false
    r2 := false
    bestr := 0
    tbs := 0
    pmv := perState fun _ => false
    pmw := perState fun _ => 0 }

/-! ### The host's side -/

/-- The host's actions still to come are these (R41). -/
def State.withInputs (l : List HostInput) (s : State) : State := { s with inputs := l }

/-! ### Reset -/

/-- The reset event: every element takes its reset value, and the memories' contents are new free values (R126, R15, R127).
The parameters, the host's side and the model's counters are no elements of the block and stay. -/
def State.resetBlock (s : State) : State :=
  { State.resetWith s.params with
    rst := s.rst
    inputs := s.inputs
    resp := s.resp
    era := s.era + 1
    draws := s.draws }

end Sys2Proof.Machine
end

