-- ==== Sys2Proof/Machine/Operands.lean ====
section
/-! DEFINITION. The operands of the commands: symbol bytes (spec/30_encoding.md R62), polynomial registers and the taps they
hold (R63, spec/41_polynomial.md R80, R82), and the frame in IN (spec/40_commands.md R75, R64, R65). -/

namespace Sys2Proof.Machine

/-- `bit(c)`: defined for 0x30 and 0x31 only (R62). -/
def symbolBit (c : Byte) : Option Bool :=
  if c = 0x30 then some false else if c = 0x31 then some true else none

/-- `SYM(b)` (R62). -/
def symbolOf (b : Bool) : Byte := if b then 0x31 else 0x30

/-- Whether a byte is a binary symbol (R62). -/
def isBinarySymbol (c : Byte) : Bool := decide (c = 0x30) || decide (c = 0x31)

/-- SYM0, SYM1 or SYM2 of a polynomial register: bits 8*i+7 down to 8*i (R31, R63). -/
def polySymbol (p : BitVec 28) (i : Nat) : Byte := p.extractLsb' (8 * i) 8

/-- PLEN, bits 27:24 (R31, R63). -/
def polyLength (p : BitVec 28) : BitVec 4 := p.extractLsb' 24 4

/-- Polynomial validity: exactly three binary symbols (R80). -/
def polyValid (p : BitVec 28) : Bool :=
  decide (polyLength p = 3) && isBinarySymbol (polySymbol p 0) && isBinarySymbol (polySymbol p 1) &&
    isBinarySymbol (polySymbol p 2)

/-- The taps a valid polynomial register holds: g[i] = bit(SYMi) (R63, R82). CHECK latches them only from a valid register,
where each symbol is 0x30 or 0x31. -/
def polyTaps (p : BitVec 28) : Taps :=
  { g0 := decide (polySymbol p 0 = 0x31)
    g1 := decide (polySymbol p 1 = 0x31)
    g2 := decide (polySymbol p 2 = 0x31) }

/-- Every byte IN[i] with i < n is a binary symbol (R75). Bytes from n on are not read. -/
def State.frameBinary (s : State) : Nat → Bool
  | 0 => true
  | n + 1 => isBinarySymbol (s.inByte n) && s.frameBinary n

/-- `bit(IN[i])` (R87, R95). -/
def State.inBit (s : State) (i : Nat) : Option Bool := symbolBit (s.inByte i)

/-- The bits of IN[0 .. n-1], first consumed first; a byte that is no symbol counts as 0, which CHECK excludes (R64, R77). -/
def State.frameBits (s : State) : Nat → List Bool
  | 0 => []
  | n + 1 => s.frameBits n ++ [decide (s.inByte n = 0x31)]

end Sys2Proof.Machine
end

