-- ==== Sys2Proof/Machine/Commands.lean ====
section
/-! DEFINITION. What a CMD write does for each row of the command map: the issue rule (spec/40_commands.md R69) around NOP
(R72), the start of ENCODE and DECODE (R73), CLEAR (R78) and the illegal commands (R79). The sequencer (Machine/Sequencer.lean)
does what follows a start. -/

namespace Sys2Proof.Machine

/-- NOP: no state changes (R72). -/
def execNop (s : State) : Host.Outcome State Fault Refusal := issueCommand (fun s => s) s

/-- ENCODE: start with OPR = ENCODE (R73). -/
def execEncode (s : State) : Host.Outcome State Fault Refusal := issueCommand (startCommand .encode) s

/-- DECODE: start with OPR = DECODE (R73). -/
def execDecode (s : State) : Host.Outcome State Fault Refusal := issueCommand (startCommand .decode) s

/-- CLEAR (R78). -/
def execClear (s : State) : Host.Outcome State Fault Refusal := issueCommand clearResults s

/-- Reserved OP 0x4 to 0x7: an illegal command, whatever the OP's low bits (R79). -/
def execIllegal47 (_op : BitVec 4) (s : State) : Host.Outcome State Fault Refusal := issueCommand completeIllegal s

/-- Reserved OP 0x8 to 0xF: an illegal command, whatever the OP's low bits (R79). -/
def execIllegal8F (_op : BitVec 4) (s : State) : Host.Outcome State Fault Refusal := issueCommand completeIllegal s

end Sys2Proof.Machine
end

