-- ==== Sys2Proof/Machine/Dispatch.lean ====
section
/-! DEFINITION. One arm per command: what issuing it by a CMD write does (spec/40_commands.md R69). -/

namespace Sys2Proof.Machine

def exec (i : Instr) (s : State) : Host.Outcome State Fault Refusal :=
  match i with
  | .nop => Sys2Proof.Machine.execNop s
  | .encode => Sys2Proof.Machine.execEncode s
  | .decode => Sys2Proof.Machine.execDecode s
  | .clear => Sys2Proof.Machine.execClear s
  | .illegal47 op => Sys2Proof.Machine.execIllegal47 op s
  | .illegal8F op => Sys2Proof.Machine.execIllegal8F op s

end Sys2Proof.Machine
end

