-- ==== Sys2Proof/Machine/Codec.lean ====
section
/-! DEFINITION. The generator tree (spec/42_encoder.md R84), the branch metric (spec/43_viterbi.md R93), and the codec as pure
functions of a bit sequence: `encodeBits` (R90), `decodeBits` in the path-storing form (R106), and the host-side reference
function `injectErrors` (spec/00_scope.md R6). -/

namespace Sys2Proof.Machine

/-- `yG(b, s, G) = (b & G[0]) ^ (s[1] & G[1]) ^ (s[0] & G[2])` (R84). -/
def generatorOutput (b : Bool) (s : TrellisState) (g : Taps) : Bool :=
  ((b && g.g0) ^^ (trellisR1 s && g.g1)) ^^ (trellisR2 s && g.g2)

/-- The Hamming distance, 0 to 2, of an edge's expected pair to a received pair (R93). -/
def branchMetric (g1 g2 : Taps) (p : TrellisState) (b r0 r1 : Bool) : Nat :=
  (r0 ^^ generatorOutput b p g1).toNat + (r1 ^^ generatorOutput b p g2).toNat

/-- The walk of R90 from state `s`: the coded pairs and the final state. -/
def encodeFrom (g1 g2 : Taps) : List Bool → TrellisState → List Bool × TrellisState
  | [], s => ([], s)
  | b :: rest, s =>
    let (c, f) := encodeFrom g1 g2 rest (successor s b)
    (generatorOutput b s g1 :: generatorOutput b s g2 :: c, f)

/-- `encode(bits, g1, g2)` (R90): the walk from state 00. -/
def encodeBits (bits : List Bool) (g1 g2 : Taps) : List Bool × TrellisState := encodeFrom g1 g2 bits 0

/-- What R106 keeps for one state: `none` for INF, or its metric and path. -/
abbrev Survivor := Option (Nat × List Bool)

/-- One edge of R106's inner loop: the candidate from state `s` on input `b` replaces the destination's entry when that is
INF or strictly larger. -/
def relaxEdge (g1 g2 : Taps) (r0 r1 : Bool) (old : PerState Survivor) (s : TrellisState) (b : Bool)
    (new : PerState Survivor) : PerState Survivor :=
  match atState old s with
  | none => new
  | some (m, path) =>
    let c := m + branchMetric g1 g2 s b r0 r1
    let take := match atState new (successor s b) with
      | none => true
      | some (m', _) => decide (c < m')
    perState fun d => if decide (d = successor s b) && take then some (c, path ++ [b]) else atState new d

/-- One time step of R106: the eight edges in the order state 00, 01, 10, 11 and bit 0, 1. -/
def decodeStep (g1 g2 : Taps) (r0 r1 : Bool) (old : PerState Survivor) : PerState Survivor :=
  trellisStates.foldl
    (fun new s => relaxEdge g1 g2 r0 r1 old s true (relaxEdge g1 g2 r0 r1 old s false new))
    (perState fun _ => none)

/-- R106's loop over the received pairs; a last unpaired bit is not read (CHECK refuses odd lengths). -/
def decodeFrom (g1 g2 : Taps) : List Bool → PerState Survivor → PerState Survivor
  | r0 :: r1 :: rest, m => decodeFrom g1 g2 rest (decodeStep g1 g2 r0 r1 m)
  | [_], m => m
  | [], m => m

/-- R106's start: state 00 has metric 0 and the empty path, the others are INF. -/
def decodeInit : PerState Survivor := perState fun d => if d = 0 then some (0, []) else none

/-- The smallest state with a finite and minimal metric, if any is finite (R101, R106). -/
def bestState (m : PerState (Option Nat)) : Option TrellisState :=
  trellisStates.find? fun k =>
    match atState m k with
    | none => false
    | some v => trellisStates.all fun j =>
        match atState m j with
        | none => true
        | some w => decide (v ≤ w)

/-- What `decode` returns (R106). -/
structure Decoded where
  bits : List Bool
  best : TrellisState
  pmv : PerState Bool
  pmw : PerState Nat
deriving DecidableEq, Repr

/-- `decode(coded, g1, g2)` (R106). A finite metric always exists, so the default state 0 is never taken. -/
def decodeBits (coded : List Bool) (g1 g2 : Taps) : Decoded :=
  let m := decodeFrom g1 g2 coded decodeInit
  let best := (bestState (perState fun d => (atState m d).map Prod.fst)).getD 0
  { bits := match atState m best with
      | none => []
      | some (_, path) => path
    best := best
    pmv := perState fun d => (atState m d).isSome
    pmw := perState fun d => match atState m d with
      | none => 0
      | some (v, _) => v }

/-- The Hamming distance of two bit sequences: how many positions they differ at (R12). -/
def hammingDistance (a b : List Bool) : Nat := (List.zipWith (fun x y => x ^^ y) a b).count true

/-- Flip the bit at one index, if it is in range (R6). -/
def flipBit : List Bool → Nat → List Bool
  | [], _ => []
  | b :: rest, 0 => (!b) :: rest
  | b :: rest, i + 1 => b :: flipBit rest i

/-- `injectErrors(coded, positions)`: one flip per occurrence, out-of-range positions ignored (R6). A host-side reference
function, no part of the block. -/
def injectErrors (coded : List Bool) (positions : List Nat) : List Bool := positions.foldl flipBit coded

end Sys2Proof.Machine
end

