-- ==== Sys2Proof/Machine/Encoder.lean ====
section
/-! DEFINITION. The ENC phase: the encoder step and its sequencing (spec/42_encoder.md R86 to R89). -/

namespace Sys2Proof.Machine

/-- Encoder initialisation (R86). -/
def encoderInit (s : State) : State := { s with r1 := false, r2 := false }

/-- What the encoder step does with input bit `b`: the pair of the old state goes to OUT, then the register shifts (R87). -/
def encoderStep (b : Bool) (s : State) : State :=
  let y1 := generatorOutput b s.encState s.tap1
  let y2 := generatorOutput b s.encState s.tap2
  { (s.writeOut (2 * s.t.toNat) (symbolOf y1)).writeOut (2 * s.t.toNat + 1) (symbolOf y2) with
    r2 := s.r1
    r1 := b
    t := s.t + 1 }

/-- Phase ENC: a step while T < NSTEP, successful completion at T = NSTEP (R88). No termination symbols follow (R89). -/
def encPhase (s : State) : Host.Outcome State Fault Refusal :=
  if s.t = s.nstep then .next (completeCommand s)
  else if s.t < s.nstep then
    if s.params.nMax ≤ s.t.toNat then .fault .indexOutOfBuffer
    else match s.inBit s.t.toNat with
      | some b => .next (encoderStep b s)
      | none => .fault .nonBinarySymbol
  else .fault .stepBeyondFrame

end Sys2Proof.Machine
end

