-- ==== Sys2Proof/Machine/Viterbi.lean ====
section
/-! DEFINITION. The decoder's phases: path-metric initialisation, the add-compare-select step, the final selection and the
traceback (spec/43_viterbi.md R92 to R103). -/

namespace Sys2Proof.Machine

/-- Path-metric initialisation: state 00 has metric 0, the others are INF (R92). -/
def metricInit (s : State) : State :=
  { s with pmv := perState fun d => decide (d = 0), pmw := perState fun _ => 0 }

/-- The metric of a trellis state as a number; `none` is INF (R20, R9). -/
def State.metric (s : State) (k : TrellisState) : Option Nat :=
  if atState s.pmv k then some (atState s.pmw k).toNat else none

/-- A destination's candidate through one source; `none` is INF (R95). -/
def acsCandidate (s : State) (r0 r1 : Bool) (d : TrellisState) (r : Bool) : Option Nat :=
  (s.metric (predecessor d r)).map fun m => m + branchMetric s.tap1 s.tap2 (predecessor d r) (trellisR1 d) r0 r1

/-- Compare and select: the source with `R2 = 0` wins a tie, a finite candidate wins over INF; the decision bit is the chosen
source's `R2`, 0 when both are INF (R95, R96, R97). -/
def acsSelect : Option Nat → Option Nat → Option Nat × Bool
  | some c0, some c1 => if c0 ≤ c1 then (some c0, false) else (some c1, true)
  | some c0, none => (some c0, false)
  | none, some c1 => (some c1, true)
  | none, none => (none, false)

/-- The new metric and the decision bit of one destination (R95). -/
def acsDestination (s : State) (r0 r1 : Bool) (d : TrellisState) : Option Nat × Bool :=
  acsSelect (acsCandidate s r0 r1 d false) (acsCandidate s r0 r1 d true)

/-- Whether a new metric fits its 17-bit entry; INF always does (R99). -/
def metricFits : Option Nat → Bool
  | none => true
  | some c => decide (c < 2 ^ 17)

/-- What the ACS step does with a received pair: all four entries replaced together, the decision word stored (R95). -/
def acsStep (r0 r1 : Bool) (s : State) : State :=
  { s.writeTbm s.t.toNat (perState fun d => (acsDestination s r0 r1 d).2) with
    pmv := perState fun d => (acsDestination s r0 r1 d).1.isSome
    pmw := perState fun d => BitVec.ofNat 17 ((acsDestination s r0 r1 d).1.getD 0)
    t := s.t + 1 }

/-- The move to SEL (R100). -/
def enterSelect (s : State) : State := { s with phase := .sel }

/-- Phase ACS: a step while T < NSTEP, the move to SEL at T = NSTEP (R100). -/
def acsPhase (s : State) : Host.Outcome State Fault Refusal :=
  if s.t = s.nstep then .next (enterSelect s)
  else if s.t < s.nstep then
    if s.params.nMax ≤ s.t.toNat then .fault .indexOutOfBuffer
    else match s.inBit (2 * s.t.toNat), s.inBit (2 * s.t.toNat + 1) with
      | some r0, some r1 =>
        if trellisStates.all fun d => metricFits (acsDestination s r0 r1 d).1 then .next (acsStep r0 r1 s)
        else .fault .metricOverflow
      | _, _ => .fault .nonBinarySymbol
  else .fault .stepBeyondFrame

/-- The final selection: BESTR and TBS take the chosen state, then TB with T unchanged (R101). -/
def selectBest (k : TrellisState) (s : State) : State := { s with bestr := k, tbs := k, phase := .tb }

/-- Phase SEL: the smallest state with a minimal finite metric (R101). -/
def selPhase (s : State) : Host.Outcome State Fault Refusal :=
  match bestState (perState s.metric) with
  | some k => .next (selectBest k s)
  | none => .fault .noFiniteMetric

/-- The traceback step: the decoded bit of step T-1 is `R1` of the state after it (R102). -/
def tracebackStep (s : State) : State :=
  { s.writeOut (s.t.toNat - 1) (symbolOf (trellisR1 s.tbs)) with
    tbs := predecessor s.tbs (atState (s.tbmWord (s.t.toNat - 1)) s.tbs)
    t := s.t - 1 }

/-- Phase TB: a traceback step while T > 0, successful completion at T = 0 (R103). -/
def tbPhase (s : State) : Host.Outcome State Fault Refusal :=
  if s.t = 0 then .next (completeCommand s)
  else if s.params.nMax < s.t.toNat then .fault .indexOutOfBuffer
  else .next (tracebackStep s)

end Sys2Proof.Machine
end

