-- ==== Sys2Proof/Machine/Sequencer.lean ====
section
/-! DEFINITION. The CHECK phase (spec/40_commands.md R74) and the block's turn: one step of the command sequencer (R70). -/

namespace Sys2Proof.Machine

/-- The error CHECK raises first for an operation, if any, in R114's order (R74). -/
def checkError (s : State) : Option ErrCode :=
  if s.opr = .encode ∧ s.params.nMax < s.lenr.toNat then some .lengthRange
  else if s.opr = .decode ∧ 2 * s.params.nMax < s.lenr.toNat then some .lengthRange
  else if ¬ polyValid s.poly1r then some .invalidPolynomial
  else if ¬ polyValid s.poly2r then some .invalidPolynomial
  else if s.opr = .decode ∧ s.lenr.getLsbD 0 = true then some .invalidInput
  else if ¬ s.frameBinary s.lenr.toNat then some .invalidInput
  else none

/-- The tap latch (R82). -/
def latchTaps (s : State) : State := { s with tap1 := polyTaps s.poly1r, tap2 := polyTaps s.poly2r }

/-- CHECK passed for ENCODE: taps latched, NSTEP = LEN, the encoder initialised, T = 0 (R74, R86). -/
def enterEncode (s : State) : State :=
  { encoderInit (latchTaps s) with nstep := s.lenr, phase := .enc, t := 0 }

/-- CHECK passed for DECODE: taps latched, NSTEP = LEN/2, the metrics initialised, T = 0 (R74, R92). -/
def enterDecode (s : State) : State :=
  { metricInit (latchTaps s) with nstep := s.lenr >>> 1, phase := .acs, t := 0 }

/-- Phase CHECK: one step, to the first datapath phase or to an error completion (R74). -/
def checkPhase (s : State) : Host.Outcome State Fault Refusal :=
  match s.opr with
  | .none => .fault .noOperation
  | .encode => match checkError s with
    | some code => .next (raiseError code s)
    | none => .next (enterEncode s)
  | .decode => match checkError s with
    | some code => .next (raiseError code s)
    | none => .next (enterDecode s)

/-- The sequencer's one enabled step; none while IDLE (R70). -/
def sequencerStep (s : State) : Host.Outcome State Fault Refusal :=
  match s.phase with
  | .idle => .next s
  | .check => checkPhase s
  | .enc => encPhase s
  | .acs => acsPhase s
  | .sel => selPhase s
  | .tb => tbPhase s

/-- The block's turn: the reset event while `rst` is asserted (R126), a sequencer step otherwise. -/
def blockTurn (s : State) : Host.Outcome State Fault Refusal :=
  if s.rst then .next s.resetBlock else sequencerStep s

end Sys2Proof.Machine
end

