-- ==== Sys2Proof/Machine/Bus.lean ====
section
/-! DEFINITION. The host bus: the address map and the bus error (spec/20_memory.md R42, R45, R46), register and window reads and
writes (R47 to R50, spec/10_state.md R26 to R38), and what one host input does (R41, spec/70_reset_and_hazards.md R126, R128). -/

namespace Sys2Proof.Machine

/-- The 16 registers of the register window, in offset order (R42). -/
inductive Register where
  | cmd
  | status
  | ctrl
  | len
  | poly1
  | poly2
  | outlen
  | encState
  | best
  | pm0
  | pm1
  | pm2
  | pm3
  | nmax
  | reserved38
  | reserved3C
deriving DecidableEq, Repr

/-- The byte offset of a register (R42). -/
def registerOffset : Register → Nat
  | .cmd => 0x00
  | .status => 0x04
  | .ctrl => 0x08
  | .len => 0x0C
  | .poly1 => 0x10
  | .poly2 => 0x14
  | .outlen => 0x18
  | .encState => 0x1C
  | .best => 0x20
  | .pm0 => 0x24
  | .pm1 => 0x28
  | .pm2 => 0x2C
  | .pm3 => 0x30
  | .nmax => 0x34
  | .reserved38 => 0x38
  | .reserved3C => 0x3C

/-- Every register (R42). -/
def registers : List Register :=
  [.cmd, .status, .ctrl, .len, .poly1, .poly2, .outlen, .encState, .best, .pm0, .pm1, .pm2, .pm3, .nmax, .reserved38, .reserved3C]

/-- The register at a byte offset, if one starts there (R42, R45). -/
def registerAt (offset : Nat) : Option Register := registers.find? fun r => decide (registerOffset r = offset)

/-- The number of bytes of an access (R41). -/
def sizeBytes : AccessSize → Nat
  | .byte => 1
  | .half => 2
  | .word => 4

/-- The IN window's base (R42). -/
def inWindowBase : Nat := 0x10000

/-- The OUT window's base (R42). -/
def outWindowBase : Nat := 0x20000

/-- Whether `n` bytes at an offset lie whole and aligned in the window of 2*N_MAX bytes at `base` (R42, R45). -/
def inWindow (p : Params) (base offset n : Nat) : Bool :=
  decide (base ≤ offset) && decide (offset + n ≤ base + 2 * p.nMax) && decide (offset % n = 0)

/-- What a well-formed access reaches. -/
inductive Target where
  /-- A register. -/
  | register (r : Register)
  /-- The IN window, from this index. -/
  | input (i : Nat)
  /-- The OUT window, from this index. -/
  | output (i : Nat)
deriving DecidableEq, Repr

/-- What an access at an offset from BASE reaches; `none` is a bus error (R42, R45, R46). -/
def offsetTarget (p : Params) (offset : Nat) (size : AccessSize) : Option Target :=
  if 2 ^ 18 ≤ offset then none
  else if offset < 0x40 then
    if size = .word then (registerAt offset).map .register else none
  else if inWindow p inWindowBase offset (sizeBytes size) then some (.input (offset - inWindowBase))
  else if inWindow p outWindowBase offset (sizeBytes size) then some (.output (offset - outWindowBase))
  else none

/-- What an access reaches. An address below BASE reaches nothing of the block (log 7). -/
def accessTarget (p : Params) (a : Access) : Option Target :=
  if a.addr < p.base then none else offsetTarget p (a.addr - p.base) a.size

/-- PMk as the host reads it: VALID in bit 31, METRIC in bits 16:0 (R35). -/
def State.pmWord (s : State) (k : TrellisState) : Word :=
  BitVec.ofBool (atState s.pmv k) ++ (0 : BitVec 14) ++ atState s.pmw k

/-- The value a register holds for a read (R26 to R37). -/
def State.registerWord (s : State) : Register → Word
  | .cmd => 0
  | .status => s.statusWord
  | .ctrl => (0 : BitVec 31) ++ BitVec.ofBool s.irqEn
  | .len => (0 : BitVec 15) ++ s.lenr
  | .poly1 => (0 : BitVec 4) ++ s.poly1r
  | .poly2 => (0 : BitVec 4) ++ s.poly2r
  | .outlen => (0 : BitVec 15) ++ s.outlenr
  | .encState => (0 : BitVec 30) ++ s.encState
  | .best => (0 : BitVec 30) ++ s.bestr
  | .pm0 => s.pmWord 0
  | .pm1 => s.pmWord 1
  | .pm2 => s.pmWord 2
  | .pm3 => s.pmWord 3
  | .nmax => (0 : BitVec 15) ++ BitVec.ofNat 17 s.params.nMax
  | .reserved38 => 0
  | .reserved3C => 0

/-- The registers whose reads are unspecified while BUSY (R38). -/
def isResultRegister : Register → Bool
  | .outlen => true
  | .encState => true
  | .best => true
  | .pm0 => true
  | .pm1 => true
  | .pm2 => true
  | .pm3 => true
  | .cmd => false
  | .status => false
  | .ctrl => false
  | .len => false
  | .poly1 => false
  | .poly2 => false
  | .nmax => false
  | .reserved38 => false
  | .reserved3C => false

/-- The `n` bytes a buffer's read function gives from an index on, lowest first. -/
def bytesFrom (read : Nat → Byte) : Nat → Nat → List Byte
  | _, 0 => []
  | i, n + 1 => read i :: bytesFrom read (i + 1) n

/-- The `n`-byte read of a buffer, little-endian (R44). -/
def windowWord (read : Nat → Byte) (i n : Nat) : Word := ofLeBytes (bytesFrom read i n)

/-- The host gets this response. -/
def State.respond (status : BusStatus) (data : Word) (s : State) : State :=
  { s with resp := some { status := status, data := data } }

/-- A free value of `n` bytes answers an unspecified read, and the next one will get another (R38, log 5). -/
def State.respondFree (n : Nat) (s : State) : State :=
  { s.respond .okay (ofLeBytes (leBytes n (Config.freeRead s.draws))) with draws := s.draws + 1 }

/-- A well-formed read (R47, R38). -/
def busRead (target : Target) (size : AccessSize) (s : State) : State :=
  match target with
  | .register r =>
    if s.busy && isResultRegister r then s.respondFree 4 else s.respond .okay (s.registerWord r)
  | .input i => s.respond .okay (windowWord s.inByte i (sizeBytes size))
  | .output i =>
    if s.busy then s.respondFree (sizeBytes size) else s.respond .okay (windowWord s.outByte i (sizeBytes size))

/-- A write that BUSY drops, setting OVR (R49). -/
def writeUnlessBusy (effect : State → State) (s : State) : Host.Outcome State Fault Refusal :=
  if s.busy then .next s.withOverrun else .next (effect s)

/-- A CMD write: the command its bytes stand for is issued (R69). -/
def writeCmd (data : Word) (s : State) : Host.Outcome State Fault Refusal :=
  match decode (leBytes 4 data) with
  | .ok i => exec i s
  | .error _ => .refused .undecodableCommand

/-- CTRL takes bit 0 (R29). -/
def writeCtrl (data : Word) (s : State) : State := { s with irqEn := data.getLsbD 0 }

/-- LEN takes bits 16:0 (R30). -/
def writeLen (data : Word) (s : State) : State := { s with lenr := data.setWidth 17 }

/-- POLY1 takes bits 27:0 (R31). -/
def writePoly1 (data : Word) (s : State) : State := { s with poly1r := data.setWidth 28 }

/-- POLY2 takes bits 27:0 (R31). -/
def writePoly2 (data : Word) (s : State) : State := { s with poly2r := data.setWidth 28 }

/-- The low `n` bytes of the data go to IN[i .. i+n-1], lowest byte first (R24, R44). -/
def writeIn (i n : Nat) (data : Word) (s : State) : State :=
  { s with inBuf := Memory.insertBytes s.inBuf i (leBytes n data) }

/-- A register write: writable fields take the data, reserved bits and read-only registers ignore it (R26 to R37, R48, R49).
CTRL is written whatever BUSY is (R29). -/
def writeRegister (r : Register) (data : Word) (s : State) : Host.Outcome State Fault Refusal :=
  match r with
  | .cmd => writeCmd data s
  | .ctrl => .next (writeCtrl data s)
  | .len => writeUnlessBusy (writeLen data) s
  | .poly1 => writeUnlessBusy (writePoly1 data) s
  | .poly2 => writeUnlessBusy (writePoly2 data) s
  | .status => .next s
  | .outlen => .next s
  | .encState => .next s
  | .best => .next s
  | .pm0 => .next s
  | .pm1 => .next s
  | .pm2 => .next s
  | .pm3 => .next s
  | .nmax => .next s
  | .reserved38 => .next s
  | .reserved3C => .next s

/-- A well-formed write (R47 to R49). -/
def busWrite (target : Target) (size : AccessSize) (data : Word) (s : State) : Host.Outcome State Fault Refusal :=
  match target with
  | .register r => writeRegister r data s
  | .input i => writeUnlessBusy (writeIn i (sizeBytes size) data) s
  | .output _ => .next s

/-- One host access. While `rst` is asserted it has no effect, gets OKAY and reads 0 (R128). A bus error changes nothing and
reads 0 (R46). Otherwise the response is OKAY (R47 to R49). -/
def busAccess (a : Access) (s : State) : Host.Outcome State Fault Refusal :=
  if s.rst then .next (s.respond .okay 0)
  else match accessTarget s.params a with
    | none => .next (s.respond .error 0)
    | some target => match a.kind with
      | .read => .next (busRead target a.size s)
      | .write data => busWrite target a.size data (s.respond .okay 0)

/-- The reset input is asserted: the reset event, and the level stays (R126). -/
def assertReset (s : State) : State := { s.resetBlock with rst := true }

/-- The reset input is deasserted: the block is idle and waits (R128). -/
def deassertReset (s : State) : State := { s with rst := false }

/-- What one host input does (R41, R126). -/
def takeInput (i : HostInput) (s : State) : Host.Outcome State Fault Refusal :=
  match i with
  | .access a => busAccess a s
  | .rst true => .next (assertReset s)
  | .rst false => .next (deassertReset s)
  | .advance => blockTurn s

/-- The 4-byte write of a word to CMD (R58). -/
def cmdWrite (p : Params) (data : Word) : Access :=
  { addr := p.base + registerOffset .cmd, size := .word, kind := .write data }

end Sys2Proof.Machine
end

