-- ==== Sys2Proof/Machine/Step.lean ====
section
/-! DEFINITION. One step of the machine: the oldest host input takes effect, or the block has its turn (spec/20_memory.md R41,
R52), and how a command comes to be the next thing that happens. -/

namespace Sys2Proof.Machine

/-- One step. With an input pending it takes effect; with none, every turn is the block's (R41, R52; log 2). -/
def step (s : State) : Host.Outcome State Fault Refusal :=
  match s.inputs with
  | [] => blockTurn s
  | i :: rest => takeInput i (s.withInputs rest)

/-- The state whose next step is the CMD write of an opcode-table word: reset is not asserted and the write is the oldest
pending input (R58, R69; log 12). -/
def State.withFetchWord (s : State) (nbits w : Nat) : State :=
  { s with rst := false, inputs := .access (cmdWrite s.params (tableWord nbits w)) :: s.inputs }

end Sys2Proof.Machine
end

