-- ==== Sys2Proof/Machine/HostPrograms.lean ====
section
/-! DEFINITION. The host program notation of spec/30_encoding.md R68, as the host inputs each line stands for. It has no hardware
meaning beyond the accesses it expands to (decision D28). -/

namespace Sys2Proof.Machine

/-- `wr32 A, V` (R68). -/
def hostWr32 (p : Params) (offset : Nat) (v : Word) : HostInput :=
  .access { addr := p.base + offset, size := .word, kind := .write v }

/-- `wr16 A, V` (R68). -/
def hostWr16 (p : Params) (offset : Nat) (v : Word) : HostInput :=
  .access { addr := p.base + offset, size := .half, kind := .write v }

/-- `wr8 A, V` (R68). -/
def hostWr8 (p : Params) (offset : Nat) (v : Word) : HostInput :=
  .access { addr := p.base + offset, size := .byte, kind := .write v }

/-- `rd32 A` (R68). -/
def hostRd32 (p : Params) (offset : Nat) : HostInput := .access { addr := p.base + offset, size := .word, kind := .read }

/-- `rd16 A` (R68). -/
def hostRd16 (p : Params) (offset : Nat) : HostInput := .access { addr := p.base + offset, size := .half, kind := .read }

/-- `rd8 A` (R68). -/
def hostRd8 (p : Params) (offset : Nat) : HostInput := .access { addr := p.base + offset, size := .byte, kind := .read }

/-- `NOP`, `ENCODE`, `DECODE`, `CLEAR`: the CMD write of the command (R68). -/
def hostCommand (p : Params) (i : Instr) : HostInput := .access (cmdWrite p (encode i))

/-- `WAIT` with `k` polls: each reads STATUS, and the block has a turn after each. How many polls WAIT makes is not determined
(R68, R134). -/
def hostWait (p : Params) : Nat → List HostInput
  | 0 => []
  | k + 1 => hostRd32 p (registerOffset .status) :: .advance :: hostWait p k

/-- The word SETPOLY1 and SETPOLY2 write for "abc" (R68). -/
def polyWord (a b c : Bool) : Word := (0x03 : BitVec 8) ++ symbolOf c ++ symbolOf b ++ symbolOf a

/-- `SETPOLY1 "abc"` (R68). -/
def hostSetPoly1 (p : Params) (a b c : Bool) : HostInput := hostWr32 p (registerOffset .poly1) (polyWord a b c)

/-- `SETPOLY2 "abc"` (R68). -/
def hostSetPoly2 (p : Params) (a b c : Bool) : HostInput := hostWr32 p (registerOffset .poly2) (polyWord a b c)

/-- One byte write per character, from an index of IN on. -/
def hostLoadBytes (p : Params) : Nat → List Byte → List HostInput
  | _, [] => []
  | i, c :: rest => hostWr8 p (inWindowBase + i) (c.setWidth 32) :: hostLoadBytes p (i + 1) rest

/-- `LOAD "s"`: the bytes of the string into IN, then its length into LEN (R68). -/
def hostLoad (p : Params) (cs : List Byte) : List HostInput :=
  hostLoadBytes p 0 cs ++ [hostWr32 p (registerOffset .len) (BitVec.ofNat 32 cs.length)]

/-- `READOUT n`: one byte read per index of OUT (R68). -/
def hostReadOut (p : Params) (n : Nat) : List HostInput := (List.range n).map fun i => hostRd8 p (outWindowBase + i)

end Sys2Proof.Machine
end

