-- ==== Sys2Proof/Safety.lean ====
section
/-! DEFINITION. What counts as a safe run: the invariant of the block's reachable states, gathered from the rules that say what
always holds (spec/10_state.md R20, R23, R27, R32, spec/41_polynomial.md R82, spec/43_viterbi.md R98, R99, R104,
spec/70_reset_and_hazards.md R126), and a step that answers a next state. -/

namespace Sys2Proof.Machine

/-- The memories are in canonical form, hold nothing outside their size, and OUT holds only binary symbols (R21, R24, R25, R62). -/
structure MemoriesSound (s : State) : Prop where
  inCanonical : Memory.wf s.inBuf = true
  inInside : sparseBelow (2 * s.params.nMax) s.inBuf = true
  outCanonical : Memory.wf s.outBuf = true
  outInside : sparseBelow (2 * s.params.nMax) s.outBuf = true
  outBinary : (s.outBuf.all fun c => isBinarySymbol c.2) = true
  tbmCanonical : sparseRising s.tbm = true
  tbmInside : sparseBelow s.params.nMax s.tbm = true

/-- CHECK has accepted the frame in IN and latched the taps (R74, R82). -/
structure FrameAccepted (s : State) : Prop where
  poly1 : polyValid s.poly1r = true
  poly2 : polyValid s.poly2r = true
  taps1 : s.tap1 = polyTaps s.poly1r
  taps2 : s.tap2 = polyTaps s.poly2r
  symbols : s.frameBinary s.lenr.toNat = true
  stepsFit : s.nstep.toNat ≤ s.params.nMax

/-- Which metrics are finite after `n` ACS steps (R98). -/
def finiteAfter (n : Nat) (k : TrellisState) : Bool :=
  match n with
  | 0 => decide (k = 0)
  | 1 => decide (k = 0) || decide (k = 2)
  | _ => true

/-- The path metrics after `n` ACS steps: finite where R98 says, and at most 2*n (R99). -/
structure MetricsAfter (n : Nat) (s : State) : Prop where
  finite : ∀ k, atState s.pmv k = finiteAfter n k
  bounded : ∀ k, (atState s.pmw k).toNat ≤ 2 * n

/-- The first `n` words of the traceback memory have been written (R104). -/
def traceWritten (n : Nat) (s : State) : Prop := ∀ i < n, (sparseLookup s.tbm i).isSome = true

/-- What each phase of the sequencer relies on (R23, R74, R88, R100, R101, R103). -/
def PhaseSound (s : State) : Prop :=
  match s.phase with
  | .idle => s.opr = .none
  | .check => s.opr ≠ .none ∧ s.t = 0
  | .enc => s.opr = .encode ∧ FrameAccepted s ∧ s.lenr = s.nstep ∧ s.t.toNat ≤ s.nstep.toNat
  | .acs => s.opr = .decode ∧ FrameAccepted s ∧ s.lenr.toNat = 2 * s.nstep.toNat ∧ s.t.toNat ≤ s.nstep.toNat ∧
      MetricsAfter s.t.toNat s ∧ traceWritten s.t.toNat s
  | .sel => s.opr = .decode ∧ FrameAccepted s ∧ s.lenr.toNat = 2 * s.nstep.toNat ∧ s.t = s.nstep ∧
      MetricsAfter s.nstep.toNat s ∧ traceWritten s.nstep.toNat s
  | .tb => s.opr = .decode ∧ FrameAccepted s ∧ s.lenr.toNat = 2 * s.nstep.toNat ∧ s.t.toNat ≤ s.nstep.toNat ∧
      MetricsAfter s.nstep.toNat s ∧ traceWritten s.nstep.toNat s

/-- The invariant of the block's states. -/
structure State.Inv (s : State) : Prop where
  /-- N_MAX lies in its range (R7). -/
  params : s.params.ok = true
  memories : MemoriesSound s
  /-- An INF entry holds the value 0 (R20). -/
  infZero : ∀ k, atState s.pmv k = false → atState s.pmw k = 0
  /-- OUTLEN never exceeds the OUT buffer (R32). -/
  outlenFits : s.outlenr.toNat ≤ 2 * s.params.nMax
  /-- DONE and ERR are 0 while BUSY (R27). -/
  busyFlags : s.busy = true → s.done = false ∧ s.err = .ok
  phase : PhaseSound s
  /-- While `rst` is asserted every element has its reset value (R126). -/
  heldInReset : s.rst = true → s = { s.resetBlock with era := s.era }

/-- LEN lies in the range of the operation in progress (R74, R111). -/
def State.lengthFits (s : State) : Prop :=
  (s.opr = .encode → s.lenr.toNat ≤ s.params.nMax) ∧ (s.opr = .decode → s.lenr.toNat ≤ 2 * s.params.nMax)

/-- Both polynomial registers hold exactly three binary symbols (R80). -/
def State.polynomialsValid (s : State) : Prop := polyValid s.poly1r = true ∧ polyValid s.poly2r = true

/-- The frame is valid: binary symbols only and, for DECODE, an even length (R75). -/
def State.frameValid (s : State) : Prop :=
  (s.opr = .decode → s.lenr.toNat % 2 = 0) ∧ ∀ i < s.lenr.toNat, s.inByte i = 0x30 ∨ s.inByte i = 0x31

/-- The command in progress passes CHECK (R74). -/
def State.passesCheck (s : State) : Prop := s.lengthFits ∧ s.polynomialsValid ∧ s.frameValid

/-- A command has just been started and the host leaves the block alone (R73). -/
structure State.Started (s : State) : Prop where
  inv : s.Inv
  rst : s.rst = false
  inputs : s.inputs = []
  phase : s.phase = .check

/-- `k` steps of the machine, stopping at the first that answers no next state; the run of the host interface
(`runSteps_eq_coreRun`). -/
def runSteps : Nat → State → Host.Outcome State Fault Refusal
  | 0, s => .next s
  | k + 1, s =>
    match step s with
    | .next t => runSteps k t
    | .fault r => .fault r
    | .refused r => .refused r

/-- The state less what a host access can change while BUSY, apart from a reset: OVR and CTRL, the response, the pending inputs
and the count of free reads (R49, R50). -/
def State.blockView (s : State) : State :=
  { s with ovr := false, irqEn := false, inputs := [], resp := none, draws := 0 }

/-- How many of the host's inputs leave the turn to the block. -/
def blockTurns (l : List HostInput) : Nat := l.countP fun i => decide (i = .advance)

/-- The targets whose writes BUSY drops (R49). -/
def droppedWhileBusy : Target → Bool
  | .register r => decide (r = .cmd) || decide (r = .len) || decide (r = .poly1) || decide (r = .poly2)
  | .input _ => true
  | .output _ => false

/-- The targets whose writes never change anything: read-only and reserved registers and the OUT window (R48). -/
def readOnlyTarget : Target → Bool
  | .register r =>
    !(decide (r = .cmd) || decide (r = .ctrl) || decide (r = .len) || decide (r = .poly1) || decide (r = .poly2))
  | .input _ => false
  | .output _ => true

/-- The host's next action is a write of these data to this target, while `rst` is not asserted. -/
def State.nextWrite (s : State) (target : Target) (size : AccessSize) (data : Word) (rest : List HostInput) : Prop :=
  s.rst = false ∧ ∃ a : Access, s.inputs = .access a :: rest ∧ a.kind = .write data ∧ a.size = size ∧
    accessTarget s.params a = some target

/-- The host's next action is a read of this target, while `rst` is not asserted. -/
def State.nextRead (s : State) (target : Target) (size : AccessSize) (rest : List HostInput) : Prop :=
  s.rst = false ∧ ∃ a : Access, s.inputs = .access a :: rest ∧ a.kind = .read ∧ a.size = size ∧
    accessTarget s.params a = some target

/-- The next step is a reset event: `rst` takes level 1, or is asserted and the block has its turn (R126). -/
def State.nextReset (s : State) : Prop :=
  (∃ rest, s.inputs = .rst true :: rest) ∨ (s.rst = true ∧ (s.inputs = [] ∨ ∃ rest, s.inputs = .advance :: rest))

/-- The next step is a sequencer step: the block has its turn and `rst` is not asserted. -/
def State.nextTurn (s : State) : Prop := s.rst = false ∧ (s.inputs = [] ∨ ∃ rest, s.inputs = .advance :: rest)

/-- A step is safe when it answers a next state: no fault, no refusal. -/
def State.safeStep (s : State) : Prop := ∃ s', step s = .next s'

end Sys2Proof.Machine
end

