-- ==== Sys2Proof/Certificates/Slice0/Obligations.lean ====
section
/-! DEFINITION. The statements for the provers. Each docstring names the rule of spec/ it formalises. -/

open Sys2Proof Sys2Proof.Machine

/-! ### Encoding -/

/-- R69, R41: a CMD write pending as the oldest input, with reset not asserted, runs exactly the command its bytes decode to, on
the state with that input taken and the bus answered OKAY. The response data 0 of a write is the model's choice (log 3), and so
is the list of inputs (log 2). -/
def Obligations.StepRunsDecodedCommand : Prop :=
  ∀ (s : State) (data : Word) (i : Instr) (rest : List HostInput),
    s.rst = false → s.inputs = .access (cmdWrite s.params data) :: rest → decode (leBytes 4 data) = .ok i →
    step s = exec i { s with inputs := rest, resp := some { status := .okay, data := 0 } }

/-- R41, R52: with no input pending, or an input that leaves the turn to the block, a step is the block's turn (log 2). -/
def Obligations.StepGivesTheBlockItsTurn : Prop :=
  ∀ (s : State) (rest : List HostInput),
    (s.inputs = [] → step s = blockTurn s) ∧
    (s.inputs = .advance :: rest → step s = blockTurn { s with inputs := rest })

/-- R59, R60: words of each row, written out from the command map, decode to the command they stand for; bits 31:4 change nothing. -/
def Obligations.CommandWordsDecode : Prop :=
  decode [0x00, 0x00, 0x00, 0x00] = .ok .nop ∧
  decode [0x01, 0x00, 0x00, 0x00] = .ok .encode ∧
  decode [0xF1, 0xFF, 0xFF, 0xFF] = .ok .encode ∧
  decode [0x02, 0x00, 0x00, 0x00] = .ok .decode ∧
  decode [0x03, 0x00, 0x00, 0x00] = .ok .clear ∧
  decode [0x07, 0x00, 0x00, 0x00] = .ok (.illegal47 7) ∧
  decode [0x08, 0x00, 0x00, 0x80] = .ok (.illegal8F 8) ∧
  decode [0x0F, 0x00, 0x00, 0x00] = .ok (.illegal8F 15) ∧
  decode [0x01, 0x00] = .error .truncated

/-- R58, R59: decoding an encoded well-formed command gives it back, every word decodes to a well-formed command, and encoding
that command gives the word with its ignored bits 31:4 cleared. -/
def Obligations.CommandEncodingRoundTrip : Prop :=
  (∀ i : Instr, i.wellFormed = true → decode (encodeBytes i) = .ok i) ∧
  (∀ w : Word, ∃ i : Instr, decodeWord w = .ok i ∧ i.wellFormed = true ∧ encode i = w &&& 0xF#32)

/-- R59: the rows of the command map, that exactly one of them accepts each word, and the command each OP value decodes to. -/
def Obligations.CommandMapPartitionsWords : Prop :=
  commandMap.map (fun r => (r.mnemonic, r.pattern, r.mask)) =
    [("NOP", 0x0#32, 0xF#32), ("ENCODE", 0x1#32, 0xF#32), ("DECODE", 0x2#32, 0xF#32), ("CLEAR", 0x3#32, 0xF#32),
     ("ILLEGAL_4_7", 0x4#32, 0xC#32), ("ILLEGAL_8_F", 0x8#32, 0x8#32)] ∧
  (∀ r ∈ commandMap, ∀ w, r.accepts w = true ↔ w &&& r.mask = r.pattern) ∧
  ∀ w : Word,
    (commandMap.filter fun r => r.accepts w).length = 1 ∧
    decodeWord w = .ok
      (if w &&& 0xF#32 = 0 then .nop
       else if w &&& 0xF#32 = 1 then .encode
       else if w &&& 0xF#32 = 2 then .decode
       else if w &&& 0xF#32 = 3 then .clear
       else if (w &&& 0xF#32).toNat < 8 then .illegal47 ((w &&& 0xF#32).setWidth 4)
       else .illegal8F ((w &&& 0xF#32).setWidth 4))

/-! ### Commands -/

/-- R72: NOP changes nothing when the block is idle, and is a dropped write that sets OVR while BUSY. -/
def Obligations.NopChangesNothing : Prop :=
  ∀ s : State,
    (s.phase = .idle → exec .nop s = .next s) ∧ (s.phase ≠ .idle → exec .nop s = .next { s with ovr := true })

/-- R73: ENCODE and DECODE start the sequencer in CHECK with DONE and ERR cleared and nothing else changed; BUSY is then 1 and
`irq` 0. -/
def Obligations.EncodeAndDecodeStart : Prop :=
  ∀ s : State, s.phase = .idle →
    exec .encode s = .next { s with opr := .encode, phase := .check, t := 0, done := false, err := .ok } ∧
    exec .decode s = .next { s with opr := .decode, phase := .check, t := 0, done := false, err := .ok } ∧
    ∀ i t, (i = .encode ∨ i = .decode) → exec i s = .next t → t.busy = true ∧ t.irq = false

/-- R78: CLEAR zeroes DONE, ERR, OVR, OUTLEN, the shift register, BEST, TBS and the path metrics and keeps everything else; while
BUSY it is dropped and sets OVR. -/
def Obligations.ClearZeroesResults : Prop :=
  ∀ s : State,
    (s.phase = .idle → exec .clear s = .next { s with
      done := false
      err := .ok
      ovr := false
      outlenr := 0
      r1 := false
      r2 := false
      bestr := 0
      tbs := 0
      pmv := { s00 := false, s01 := false, s10 := false, s11 := false }
      pmw := { s00 := 0, s01 := 0, s10 := 0, s11 := 0 } }) ∧
    (s.phase ≠ .idle → exec .clear s = .next { s with ovr := true })

/-- R79: a reserved OP completes at once with DONE 1, ERR ILLEGAL_CMD and OUTLEN 0, changes nothing else, and raises `irq` when
IRQ_EN is 1. -/
def Obligations.IllegalCommandCompletes : Prop :=
  ∀ (s : State) (op : BitVec 4), s.phase = .idle →
    exec (.illegal47 op) s = .next { s with done := true, err := .illegalCmd, outlenr := 0 } ∧
    exec (.illegal8F op) s = .next { s with done := true, err := .illegalCmd, outlenr := 0 } ∧
    ∀ i t, (i = .illegal47 op ∨ i = .illegal8F op) → exec i s = .next t →
      t.busy = false ∧ errorCode t.err = 3 ∧ t.irq = s.irqEn

/-- R69: what a write of `v` to CMD does, by PHASE and by the OP field of `v`. -/
def Obligations.CmdWriteIssuesCommand : Prop :=
  ∀ (s : State) (v : Word),
    (s.phase ≠ .idle → writeCmd v s = .next { s with ovr := true }) ∧
    (s.phase = .idle →
      (v.toNat % 16 = 0 → writeCmd v s = .next s) ∧
      (v.toNat % 16 = 1 → writeCmd v s = exec .encode s) ∧
      (v.toNat % 16 = 2 → writeCmd v s = exec .decode s) ∧
      (v.toNat % 16 = 3 → writeCmd v s = exec .clear s) ∧
      (4 ≤ v.toNat % 16 → writeCmd v s = .next { s with done := true, err := .illegalCmd, outlenr := 0 }))

/-- R69, R72, R73, R78, R79: the frame of every command's issue. Whatever the command and whether BUSY drops it or not, it
answers a next state in which every byte of IN and OUT and every traceback word reads as before and the taps, LEN, the
polynomials, IRQ_EN, NSTEP, the parameters and the host's side are unchanged. Only CLEAR writes the shift register, the metrics, BEST and TBS, only ENCODE
and DECODE move the sequencer, only CLEAR and the illegal commands write OUTLEN, and NOP writes no flag but a dropped write's OVR. -/
def Obligations.CommandIssueFrame : Prop :=
  ∀ (i : Instr) (s : State), ∃ t, exec i s = .next t ∧
    (∀ a, t.inByte a = s.inByte a) ∧ (∀ a, t.outByte a = s.outByte a) ∧ (∀ a, t.tbmWord a = s.tbmWord a) ∧
    t.tap1 = s.tap1 ∧ t.tap2 = s.tap2 ∧ t.lenr = s.lenr ∧ t.poly1r = s.poly1r ∧ t.poly2r = s.poly2r ∧ t.irqEn = s.irqEn ∧
    t.nstep = s.nstep ∧ t.params = s.params ∧ t.rst = s.rst ∧ t.inputs = s.inputs ∧ t.resp = s.resp ∧ t.era = s.era ∧
    t.draws = s.draws ∧
    (i ≠ .clear → t.r1 = s.r1 ∧ t.r2 = s.r2 ∧ t.pmv = s.pmv ∧ t.pmw = s.pmw ∧ t.bestr = s.bestr ∧ t.tbs = s.tbs) ∧
    (i ≠ .encode → i ≠ .decode → t.phase = s.phase ∧ t.opr = s.opr ∧ t.t = s.t) ∧
    (i = .nop ∨ i = .encode ∨ i = .decode → t.outlenr = s.outlenr) ∧
    (i = .nop → t.done = s.done ∧ t.err = s.err) ∧
    (s.phase = .idle → i ≠ .clear → t.ovr = s.ovr)

/-! ### CHECK, completion and the sequencer -/

/-- R114, R115: the error CHECK reports when several apply, and what the error completion leaves; everything it does not name is
unchanged, and `irq` takes the value of IRQ_EN. -/
def Obligations.CheckReportsFirstError : Prop :=
  ∀ s : State, s.rst = false → s.phase = .check → s.opr = .encode ∨ s.opr = .decode →
    (¬ s.lengthFits → blockTurn s = .next
      { s with phase := .idle, opr := .none, done := true, err := .lengthRange, outlenr := 0 }) ∧
    (s.lengthFits → ¬ s.polynomialsValid → blockTurn s = .next
      { s with phase := .idle, opr := .none, done := true, err := .invalidPolynomial, outlenr := 0 }) ∧
    (s.lengthFits → s.polynomialsValid → ¬ s.frameValid → blockTurn s = .next
      { s with phase := .idle, opr := .none, done := true, err := .invalidInput, outlenr := 0 }) ∧
    (¬ s.passesCheck → ∀ t, blockTurn s = .next t → t.irq = s.irqEn ∧ t.busy = false)

/-- R86, R92, R82: a CHECK that raises no error latches the taps and enters ENC with the shift register 00, or ACS with metric 0
for state 00 and INF for the others. -/
def Obligations.CheckPassEntersDatapath : Prop :=
  ∀ s : State, s.rst = false → s.phase = .check → s.passesCheck →
    (s.opr = .encode → blockTurn s = .next { s with
      tap1 := polyTaps s.poly1r
      tap2 := polyTaps s.poly2r
      nstep := s.lenr
      r1 := false
      r2 := false
      phase := .enc
      t := 0 }) ∧
    (s.opr = .decode → blockTurn s = .next { s with
      tap1 := polyTaps s.poly1r
      tap2 := polyTaps s.poly2r
      nstep := BitVec.ofNat 17 (s.lenr.toNat / 2)
      pmv := { s00 := true, s01 := false, s10 := false, s11 := false }
      pmw := { s00 := 0, s01 := 0, s10 := 0, s11 := 0 }
      phase := .acs
      t := 0 })

/-- R76: successful completion, in ENC at T = NSTEP and in TB at T = 0: OUTLEN, PHASE, OPR, DONE and ERR written, all else kept. -/
def Obligations.SuccessfulCompletion : Prop :=
  ∀ s : State, s.rst = false →
    (s.phase = .enc → s.opr = .encode → s.t = s.nstep → blockTurn s = .next
      { s with outlenr := 2 * s.nstep, phase := .idle, opr := .none, done := true, err := .ok }) ∧
    (s.phase = .tb → s.opr = .decode → s.t = 0 → blockTurn s = .next
      { s with outlenr := s.nstep, phase := .idle, opr := .none, done := true, err := .ok })

/-- R23, R70: the sequencer leaves IDLE only by a CMD write of ENCODE or DECODE, and then to CHECK. -/
def Obligations.OnlyStartLeavesIdle : Prop :=
  ∀ s t : State, step s = .next t → s.phase = .idle → t.phase ≠ .idle →
    t.phase = .check ∧ ∃ data rest, s.nextWrite (.register .cmd) .word data rest ∧
      (decodeWord data = .ok .encode ∨ decodeWord data = .ok .decode)

/-- R63, R80: a polynomial register is valid exactly when PLEN is 3 and its three symbols are 0x30 or 0x31; every pattern of
three taps has a valid register, and the taps read from it are its symbols' bits, SYM0 first. -/
def Obligations.PolynomialRegisterMeaning : Prop :=
  (∀ p : BitVec 28, polyValid p = true ↔
    p.extractLsb' 24 4 = 3#4 ∧
    (p.extractLsb' 0 8 = 0x30#8 ∨ p.extractLsb' 0 8 = 0x31#8) ∧
    (p.extractLsb' 8 8 = 0x30#8 ∨ p.extractLsb' 8 8 = 0x31#8) ∧
    (p.extractLsb' 16 8 = 0x30#8 ∨ p.extractLsb' 16 8 = 0x31#8)) ∧
  ∀ a b c : Bool,
    polyValid (3#4 ++ symbolOf c ++ symbolOf b ++ symbolOf a) = true ∧
    polyTaps (3#4 ++ symbolOf c ++ symbolOf b ++ symbolOf a) = { g0 := a, g1 := b, g2 := c }

/-! ### Encoder -/

/-- R85: the successor and output pair of each of the eight edges for the default polynomials, in the order of R85's table. -/
def Obligations.DefaultEdgeTable : Prop :=
  (trellisStates.flatMap fun s => [false, true].map fun b =>
      (successor s b, generatorOutput b s (polyTaps 0x3313131), generatorOutput b s (polyTaps 0x3313031))) =
    [(0, false, false), (2, true, true), (0, true, true), (2, false, false),
     (1, true, false), (3, false, true), (1, false, true), (3, true, false)]

/-- R84, R87: the encoder step. The pair of the old state goes to OUT[2T] and OUT[2T+1], the register shifts, T advances; every
other byte of OUT and every other element is unchanged. -/
def Obligations.EncoderStep : Prop :=
  ∀ s : State, s.Inv → s.rst = false → s.phase = .enc → s.t.toNat < s.nstep.toNat →
    ∃ u, blockTurn s = .next u ∧
      (let b := decide (s.inByte s.t.toNat = 0x31)
       u.outByte (2 * s.t.toNat) =
         symbolOf (((b && s.tap1.g0) ^^ (s.r1 && s.tap1.g1)) ^^ (s.r2 && s.tap1.g2)) ∧
       u.outByte (2 * s.t.toNat + 1) =
         symbolOf (((b && s.tap2.g0) ^^ (s.r1 && s.tap2.g1)) ^^ (s.r2 && s.tap2.g2)) ∧
       (∀ a, a ≠ 2 * s.t.toNat → a ≠ 2 * s.t.toNat + 1 → u.outByte a = s.outByte a) ∧
       u.t.toNat = s.t.toNat + 1 ∧
       u = { s with r1 := b, r2 := s.r1, t := u.t, outBuf := u.outBuf })

/-! ### Decoder -/

/-- R17, R94: the two predecessors of a state are the only states with an edge into it, and both edges carry its `R1` as input. -/
def Obligations.TrellisPredecessors : Prop :=
  ∀ (p d : TrellisState) (b : Bool),
    (successor p b).toNat = 2 * b.toNat + (p.getLsbD 1).toNat ∧
    (successor p b = d ↔
      b = d.getLsbD 1 ∧ (p.toNat = 2 * (d.getLsbD 0).toNat ∨ p.toNat = 2 * (d.getLsbD 0).toNat + 1))

/-- R93, R95, R96, R97, R100: the add-compare-select step, for every destination at once, and the move to SEL at T = NSTEP. The
source with `R2 = 0` wins a tie, a finite candidate wins over INF, and a destination with no finite source stays INF with value
0 and decision 0. Nothing but the metrics, traceback word T and T changes. -/
def Obligations.AddCompareSelectStep : Prop :=
  ∀ s : State, s.Inv → s.rst = false → s.phase = .acs →
    (s.t = s.nstep → blockTurn s = .next { s with phase := .sel }) ∧
    (s.t.toNat < s.nstep.toNat → ∃ u, blockTurn s = .next u ∧
      u.t.toNat = s.t.toNat + 1 ∧
      (∀ w, w ≠ s.t.toNat → u.tbmWord w = s.tbmWord w) ∧
      u = { s with pmv := u.pmv, pmw := u.pmw, tbm := u.tbm, t := u.t } ∧
      ∀ d : TrellisState,
        let r0 := decide (s.inByte (2 * s.t.toNat) = 0x31)
        let r1 := decide (s.inByte (2 * s.t.toNat + 1) = 0x31)
        let y := fun (b : Bool) (p : TrellisState) (g : Taps) =>
          ((b && g.g0) ^^ (p.getLsbD 1 && g.g1)) ^^ (p.getLsbD 0 && g.g2)
        let cand := fun (p : TrellisState) => (atState s.pmw p).toNat +
          ((r0 ^^ y (d.getLsbD 1) p s.tap1).toNat + (r1 ^^ y (d.getLsbD 1) p s.tap2).toNat)
        let p0 := BitVec.ofNat 2 (2 * (d.getLsbD 0).toNat)
        let p1 := BitVec.ofNat 2 (2 * (d.getLsbD 0).toNat + 1)
        (atState s.pmv p0 = true → (atState s.pmv p1 = true → cand p0 ≤ cand p1) →
          atState u.pmv d = true ∧ (atState u.pmw d).toNat = cand p0 ∧ atState (u.tbmWord s.t.toNat) d = false) ∧
        (atState s.pmv p1 = true → (atState s.pmv p0 = true → cand p1 < cand p0) →
          atState u.pmv d = true ∧ (atState u.pmw d).toNat = cand p1 ∧ atState (u.tbmWord s.t.toNat) d = true) ∧
        (atState s.pmv p0 = false → atState s.pmv p1 = false →
          atState u.pmv d = false ∧ (atState u.pmw d).toNat = 0 ∧ atState (u.tbmWord s.t.toNat) d = false))

/-- R101: the final selection takes the lowest-numbered state among those with a minimal finite metric, into BESTR and TBS, and
moves to TB; T and everything else stay. -/
def Obligations.FinalSelection : Prop :=
  ∀ s : State, s.rst = false → s.phase = .sel → (∃ k, atState s.pmv k = true) →
    ∃ k : TrellisState,
      blockTurn s = .next { s with bestr := k, tbs := k, phase := .tb } ∧
      atState s.pmv k = true ∧
      (∀ j, atState s.pmv j = true → (atState s.pmw k).toNat ≤ (atState s.pmw j).toNat) ∧
      (∀ j : TrellisState, j.toNat < k.toNat → atState s.pmv j = true → (atState s.pmw k).toNat < (atState s.pmw j).toNat)

/-- R102: the traceback step writes the decoded bit of step T-1, moves TBS to the recorded predecessor and T down by one; every
other byte of OUT and every other element is unchanged. -/
def Obligations.TracebackStep : Prop :=
  ∀ s : State, s.Inv → s.rst = false → s.phase = .tb → s.t.toNat ≠ 0 →
    ∃ u, blockTurn s = .next u ∧
      u.outByte (s.t.toNat - 1) = symbolOf (s.tbs.getLsbD 1) ∧
      (∀ a, a ≠ s.t.toNat - 1 → u.outByte a = s.outByte a) ∧
      u.tbs.toNat = 2 * (s.tbs.getLsbD 0).toNat + (atState (s.tbmWord (s.t.toNat - 1)) s.tbs).toNat ∧
      u.t.toNat = s.t.toNat - 1 ∧
      u = { s with outBuf := u.outBuf, tbs := u.tbs, t := u.t }

/-! ### Whole commands -/

/-- R71: how many sequencer steps a command takes, left alone by the host: one when CHECK fails, NSTEP + 2 for ENCODE and
2*NSTEP + 4 for DECODE, and BUSY stays 1 until the last of them. -/
def Obligations.CommandStepCounts : Prop :=
  ∀ s : State, s.Started →
    (¬ s.passesCheck → ∃ t, runSteps 1 s = .next t ∧ t.phase = .idle ∧ t.done = true) ∧
    (s.passesCheck → ∀ n, n = (if s.opr = .encode then s.lenr.toNat + 2 else 2 * (s.lenr.toNat / 2) + 4) →
      (∀ k < n, ∃ u, runSteps k s = .next u ∧ u.busy = true) ∧
      ∃ t, runSteps n s = .next t ∧ t.phase = .idle ∧ t.done = true ∧ t.err = .ok)

/-- R89, R90: after an ENCODE that passes CHECK, OUT holds the symbols of `encode(bits)` for the polynomials in POLY1 and POLY2,
ENC_STATE its final state and OUTLEN 2*LEN; later OUT bytes, the decoder's results, TBM and the inputs of the command are
unchanged. -/
def Obligations.EncodeComputesCode : Prop :=
  ∀ s : State, s.Started → s.opr = .encode → s.passesCheck →
    ∃ t, runSteps (s.lenr.toNat + 2) s = .next t ∧
      (let n := s.lenr.toNat
       let code := encodeBits (s.frameBits n) (polyTaps s.poly1r) (polyTaps s.poly2r)
       t.phase = .idle ∧ t.done = true ∧ t.err = .ok ∧ t.outlenr.toNat = 2 * n ∧
       code.1.length = 2 * n ∧
       (∀ (i : Nat) (b : Bool), code.1[i]? = some b → t.outByte i = symbolOf b) ∧
       t.encState = code.2 ∧
       (∀ i, 2 * n ≤ i → t.outByte i = s.outByte i) ∧
       (∀ i, t.inByte i = s.inByte i) ∧ (∀ i, t.tbmWord i = s.tbmWord i) ∧
       t.pmv = s.pmv ∧ t.pmw = s.pmw ∧ t.bestr = s.bestr ∧ t.tbs = s.tbs ∧ t.lenr = s.lenr ∧ t.poly1r = s.poly1r ∧
       t.poly2r = s.poly2r ∧ t.irqEn = s.irqEn ∧ t.ovr = s.ovr)

/-- R104, R105, R106, R107: after a DECODE that passes CHECK, OUT holds the symbols of the path-storing decoder's answer, BEST,
PM0 to PM3 and OUTLEN hold its other results, and the traceback has ended at state 00; later OUT bytes, the shift register and
the inputs of the command are unchanged. -/
def Obligations.DecodeComputesBestPath : Prop :=
  ∀ s : State, s.Started → s.opr = .decode → s.passesCheck →
    ∃ t, runSteps (s.lenr.toNat + 4) s = .next t ∧
      (let n := s.lenr.toNat / 2
       let d := decodeBits (s.frameBits s.lenr.toNat) (polyTaps s.poly1r) (polyTaps s.poly2r)
       t.phase = .idle ∧ t.done = true ∧ t.err = .ok ∧ t.outlenr.toNat = n ∧
       d.bits.length = n ∧
       (∀ (i : Nat) (b : Bool), d.bits[i]? = some b → t.outByte i = symbolOf b) ∧
       t.bestr = d.best ∧ t.pmv = d.pmv ∧ (∀ k, (atState t.pmw k).toNat = atState d.pmw k) ∧
       t.tbs = 0 ∧
       (∀ i, n ≤ i → t.outByte i = s.outByte i) ∧
       (∀ i, t.inByte i = s.inByte i) ∧
       t.r1 = s.r1 ∧ t.r2 = s.r2 ∧ t.lenr = s.lenr ∧ t.poly1r = s.poly1r ∧ t.poly2r = s.poly2r ∧ t.irqEn = s.irqEn ∧
       t.ovr = s.ovr)

/-- R39: two blocks that agree on N_MAX, POLY1, POLY2, LEN, the operation and IN[0 .. LEN-1] when a command starts end it with
the same ERR, OUTLEN and OUT[0 .. OUTLEN-1], and the same ENC_STATE, or BEST and path metrics, whatever else they held. -/
def Obligations.CommandDependsOnFrameOnly : Prop :=
  ∀ s s' : State, s.Started → s'.Started → s.params.nMax = s'.params.nMax → s.poly1r = s'.poly1r → s.poly2r = s'.poly2r →
    s.lenr = s'.lenr → s.opr = s'.opr → (∀ i < s.lenr.toNat, s.inByte i = s'.inByte i) →
    ∃ k t t', runSteps k s = .next t ∧ runSteps k s' = .next t' ∧ t.phase = .idle ∧ t'.phase = .idle ∧
      t.done = true ∧ t'.done = true ∧ t.err = t'.err ∧ t.outlenr = t'.outlenr ∧
      (∀ i < t.outlenr.toNat, t.outByte i = t'.outByte i) ∧
      (t.err = .ok → s.opr = .encode → t.r1 = t'.r1 ∧ t.r2 = t'.r2) ∧
      (t.err = .ok → s.opr = .decode → t.bestr = t'.bestr ∧ t.pmv = t'.pmv ∧ t.pmw = t'.pmw)

/-- R41, R49, R51, R77: while a command runs, no host access disturbs it. Any inputs without a reset, interleaved in any way with
the block's turns, leave the block where the same number of turns alone leaves it, up to OVR, IRQ_EN and the host's side. -/
def Obligations.HostAccessesCannotDisturbCommand : Prop :=
  ∀ (s u : State) (l : List HostInput), s.rst = false → (∀ level, HostInput.rst level ∉ l) →
    (∀ j ≤ blockTurns l, ∃ v, runSteps j { s with inputs := [] } = .next v ∧ v.busy = true) →
    runSteps (blockTurns l + 1) { s with inputs := [] } = .next u →
    ∃ t, runSteps (l.length + 1) { s with inputs := l ++ [.advance] } = .next t ∧ t.blockView = u.blockView

/-! ### Invariants -/

/-- The state right after reset meets the invariant. -/
def Obligations.ResetMeetsInvariant : Prop := State.reset.Inv

/-- R20, R23, R27, R32, R98, R99, R104, R126: every step from every state that meets the invariant gives a state that meets it. -/
def Obligations.StepKeepsInvariant : Prop := ∀ s t : State, s.Inv → step s = .next t → t.Inv

/-- R43, R99, R113: from every state that meets the invariant a step answers a next state: no index out of range, no metric
overflow, no undefined symbol, and always an enabled step. -/
def Obligations.InvariantStepNeverStops : Prop := ∀ s : State, s.Inv → s.safeStep

/-- R36: N_MAX never changes, and NMAX reads it in bits 16:0 with zeros above. -/
def Obligations.FrameCapacityIsConstant : Prop :=
  (∀ s t : State, step s = .next t → t.params = s.params) ∧
  ∀ s : State, s.params.ok = true → (s.registerWord .nmax).toNat = s.params.nMax

/-- R24: the block never writes IN. IN's bytes change only by a reset or by a host write to the IN window while BUSY is 0. -/
def Obligations.OnlyTheHostWritesIn : Prop :=
  ∀ s t : State, step s = .next t → (∃ i, t.inByte i ≠ s.inByte i) →
    s.nextReset ∨ (s.busy = false ∧ ∃ i size data rest, s.nextWrite (.input i) size data rest)

/-- R25, R48: an OUT byte changes only by a reset, by an encoder step at 2T or 2T+1, or by a traceback step at T-1. -/
def Obligations.OnlyTheDatapathWritesOut : Prop :=
  ∀ (s t : State) (i : Nat), step s = .next t → t.outByte i ≠ s.outByte i →
    s.nextReset ∨
    (s.nextTurn ∧ s.phase = .enc ∧ s.t.toNat < s.nstep.toNat ∧ (i = 2 * s.t.toNat ∨ i = 2 * s.t.toNat + 1)) ∨
    (s.nextTurn ∧ s.phase = .tb ∧ s.t.toNat ≠ 0 ∧ i = s.t.toNat - 1)

/-- R28, R29, R30, R31, R49: CTRL.IRQ_EN, LEN, POLY1 and POLY2 change only by a reset or by a host write to that register, and
the last three only while BUSY is 0. -/
def Obligations.OnlyTheHostWritesConfiguration : Prop :=
  ∀ s t : State, step s = .next t →
    (t.irqEn ≠ s.irqEn → s.nextReset ∨ ∃ data rest, s.nextWrite (.register .ctrl) .word data rest) ∧
    (t.lenr ≠ s.lenr → s.nextReset ∨ (s.busy = false ∧ ∃ data rest, s.nextWrite (.register .len) .word data rest)) ∧
    (t.poly1r ≠ s.poly1r → s.nextReset ∨ (s.busy = false ∧ ∃ data rest, s.nextWrite (.register .poly1) .word data rest)) ∧
    (t.poly2r ≠ s.poly2r → s.nextReset ∨ (s.busy = false ∧ ∃ data rest, s.nextWrite (.register .poly2) .word data rest))

/-- R19, R82: the latched taps change only by a reset or at the end of a CHECK that passes, and then to the polynomials' taps. -/
def Obligations.OnlyCheckLatchesTaps : Prop :=
  ∀ s t : State, step s = .next t → (t.tap1 ≠ s.tap1 ∨ t.tap2 ≠ s.tap2) →
    s.nextReset ∨
    (s.nextTurn ∧ s.phase = .check ∧ s.passesCheck ∧ t.tap1 = polyTaps s.poly1r ∧ t.tap2 = polyTaps s.poly2r)

/-! ### Flags and interrupt -/

/-- R28: OVR rises only by a write that BUSY drops and falls only by CLEAR or reset. DONE rises only at a completion or an illegal
command and falls only at the start of ENCODE or DECODE, by CLEAR or by reset. ERR changes only by one of those. BUSY rises
only at the start of ENCODE or DECODE and falls only in the block's turn, at a completion, or by reset. -/
def Obligations.FlagChangesHaveCauses : Prop :=
  ∀ s t : State, step s = .next t →
    (s.ovr = false → t.ovr = true →
      s.busy = true ∧ ∃ target size data rest, s.nextWrite target size data rest ∧ droppedWhileBusy target = true) ∧
    (s.ovr = true → t.ovr = false →
      s.nextReset ∨ (s.busy = false ∧ ∃ data rest, s.nextWrite (.register .cmd) .word data rest ∧
        decodeWord data = .ok .clear)) ∧
    (s.done = false → t.done = true →
      (s.nextTurn ∧ s.busy = true ∧ t.busy = false) ∨
      (s.busy = false ∧ ∃ data rest op, s.nextWrite (.register .cmd) .word data rest ∧
        (decodeWord data = .ok (.illegal47 op) ∨ decodeWord data = .ok (.illegal8F op)))) ∧
    (s.done = true → t.done = false →
      s.nextReset ∨ (s.busy = false ∧ ∃ data rest i, s.nextWrite (.register .cmd) .word data rest ∧
        decodeWord data = .ok i ∧ (i = .encode ∨ i = .decode ∨ i = .clear))) ∧
    (t.err ≠ s.err →
      s.nextReset ∨ (s.nextTurn ∧ s.busy = true ∧ t.busy = false) ∨
      (s.busy = false ∧ ∃ data rest i, s.nextWrite (.register .cmd) .word data rest ∧ decodeWord data = .ok i ∧ i ≠ .nop)) ∧
    (s.busy = false → t.busy = true →
      ∃ data rest, s.nextWrite (.register .cmd) .word data rest ∧
        (decodeWord data = .ok .encode ∨ decodeWord data = .ok .decode)) ∧
    (s.busy = true → t.busy = false → s.nextReset ∨ (s.nextTurn ∧ t.done = true ∧ t.opr = .none))

/-- R118: `irq` is IRQ_EN & DONE: a completion or an illegal command raises it when enabled, ENCODE, DECODE, CLEAR and reset lower it, and so does
writing IRQ_EN = 0; writing IRQ_EN = 1 raises it at once when DONE is 1. -/
def Obligations.InterruptLevel : Prop :=
  ∀ s : State,
    (s.irq = true ↔ s.irqEn = true ∧ s.done = true) ∧
    (∀ t, s.nextTurn → s.busy = true → step s = .next t → t.busy = false → t.irq = s.irqEn) ∧
    (∀ i t, s.busy = false → (i = .encode ∨ i = .decode ∨ i = .clear) → exec i s = .next t → t.irq = false) ∧
    (∀ i op t, s.busy = false → (i = .illegal47 op ∨ i = .illegal8F op) → exec i s = .next t → t.irq = s.irqEn) ∧
    (∀ t, s.nextReset → step s = .next t → t.irq = false) ∧
    (∀ data rest, s.nextWrite (.register .ctrl) .word data rest →
      ∃ t, step s = .next t ∧ t.irq = (data.getLsbD 0 && s.done))

/-! ### Reset -/

/-- R126, R127: asserting `rst` sets every element to its reset value, whatever the block was doing, and so does every turn of the
block while it stays asserted; the registers then read as R126 says and `irq` is 0. -/
def Obligations.ResetSetsResetValues : Prop :=
  ∀ s : State, s.nextReset →
    ∃ t, step s = .next t ∧
      t.phase = .idle ∧ t.opr = .none ∧ t.t = 0 ∧ t.nstep = 0 ∧ t.done = false ∧ t.err = .ok ∧ t.ovr = false ∧
      t.irqEn = false ∧ t.lenr = 0 ∧ t.registerWord .poly1 = 0x03313131 ∧ t.registerWord .poly2 = 0x03313031 ∧
      t.outlenr = 0 ∧ t.r1 = false ∧ t.r2 = false ∧
      t.tap1 = { g0 := false, g1 := false, g2 := false } ∧ t.tap2 = { g0 := false, g1 := false, g2 := false } ∧
      (∀ k, atState t.pmv k = false ∧ atState t.pmw k = 0) ∧ t.tbs = 0 ∧ t.bestr = 0 ∧
      (∀ r, r = .status ∨ r = .ctrl ∨ r = .len ∨ r = .outlen ∨ r = .encState ∨ r = .best ∨ r = .pm0 ∨ r = .pm1 ∨
        r = .pm2 ∨ r = .pm3 → t.registerWord r = 0) ∧
      t.registerWord .nmax = s.registerWord .nmax ∧ (s.params.ok = true → (t.registerWord .nmax).toNat = s.params.nMax) ∧
      t.rst = true ∧ t.irq = false

/-- R128: while `rst` is asserted an access gets OKAY, a read returns 0, and nothing changes; a block with `rst` deasserted and
PHASE = IDLE does nothing in its turn. That an access R46 makes a bus error gets OKAY too while `rst` is asserted is the model's
reading (log 6). -/
def Obligations.AccessInResetHasNoEffect : Prop :=
  (∀ (s : State) (a : Access) (rest : List HostInput), s.rst = true → s.inputs = .access a :: rest →
    ∃ t data, step s = .next t ∧ t = { s with inputs := rest, resp := some { status := .okay, data := data } } ∧
      (a.kind = .read → data = 0)) ∧
  (∀ (s : State) (rest : List HostInput), s.Inv → s.rst = true → s.inputs = .rst false :: rest →
    step s = .next { s with inputs := rest, rst := false } ∧ s.phase = .idle) ∧
  (∀ s : State, s.rst = false → s.phase = .idle → blockTurn s = .next s)

/-! ### The host bus -/

/-- R45, R46: which accesses get a bus error, and that it changes nothing and reads 0. That an address below BASE gets one and
that alignment is measured from BASE are the model's reading (logs 7 and 8), and the data 0 in the response to a write is its
choice (log 3). -/
def Obligations.BusErrorExactly : Prop :=
  ∀ (s : State) (a : Access) (rest : List HostInput), s.params.ok = true → s.rst = false → s.inputs = .access a :: rest →
    ∃ t, step s = .next t ∧
      (let o := a.addr - s.params.base
       let n := sizeBytes a.size
       let window := fun base => base ≤ o ∧ o + n ≤ base + 2 * s.params.nMax ∧ o % n = 0
       let legal := s.params.base ≤ a.addr ∧
         ((a.size = .word ∧ o % 4 = 0 ∧ o < 0x40) ∨ window 0x10000 ∨ window 0x20000)
       (¬ legal → t = { s with inputs := rest, resp := some { status := .error, data := 0 } }) ∧
       (legal → ∃ data, t.resp = some { status := .okay, data := data }))

/-- R42: every legal access reaches what the address map says, reads and writes alike: each register at its own offset, IN from
offset - 0x10000, OUT from offset - 0x20000. -/
def Obligations.AddressMap : Prop :=
  ∀ (p : Params) (kind : AccessKind), p.ok = true →
    (∀ x : Nat × Register,
      x ∈ [(0x00, .cmd), (0x04, .status), (0x08, .ctrl), (0x0C, .len), (0x10, .poly1), (0x14, .poly2), (0x18, .outlen),
        (0x1C, .encState), (0x20, .best), (0x24, .pm0), (0x28, .pm1), (0x2C, .pm2), (0x30, .pm3), (0x34, .nmax),
        (0x38, .reserved38), (0x3C, .reserved3C)] →
      accessTarget p { addr := p.base + x.1, size := .word, kind := kind } = some (.register x.2)) ∧
    (∀ size i, i + sizeBytes size ≤ 2 * p.nMax → i % sizeBytes size = 0 →
      accessTarget p { addr := p.base + 0x10000 + i, size := size, kind := kind } = some (.input i) ∧
      accessTarget p { addr := p.base + 0x20000 + i, size := size, kind := kind } = some (.output i))

/-- R50: no read has a side effect on the block: only the response, the taken input and the model's count of free reads change. -/
def Obligations.ReadsHaveNoSideEffect : Prop :=
  ∀ (s : State) (a : Access) (rest : List HostInput), a.kind = .read → s.inputs = .access a :: rest →
    ∃ t, step s = .next t ∧ t = { s with inputs := rest, resp := t.resp, draws := t.draws }

/-- R44: the sum a little-endian read returns, and where a write of n bytes to the IN window puts each of them; every other IN byte
and everything else in the block is unchanged. -/
def Obligations.LittleEndianWindows : Prop :=
  (∀ (f : Nat → Byte) (i : Nat) (size : AccessSize),
    (windowWord f i (sizeBytes size)).toNat = ((List.range (sizeBytes size)).map fun j => (f (i + j)).toNat * 2 ^ (8 * j)).sum) ∧
  (∀ (s : State) (i : Nat) (size : AccessSize) (data : Word) (rest : List HostInput),
    s.busy = false → s.nextWrite (.input i) size data rest →
    ∃ t, step s = .next t ∧
      (∀ j < sizeBytes size, t.inByte (i + j) = data.extractLsb' (8 * j) 8) ∧
      (∀ k, k < i ∨ i + sizeBytes size ≤ k → t.inByte k = s.inByte k) ∧
      t = { s with inBuf := t.inBuf, inputs := rest, resp := t.resp }) ∧
  (∀ (s : State) (i : Nat) (size : AccessSize) (rest : List HostInput),
    (s.nextRead (.input i) size rest → ∃ t, step s = .next t ∧
      t.resp = some { status := .okay, data := windowWord s.inByte i (sizeBytes size) }) ∧
    (s.busy = false → s.nextRead (.output i) size rest → ∃ t, step s = .next t ∧
      t.resp = some { status := .okay, data := windowWord s.outByte i (sizeBytes size) }))

/-- R29, R30, R31: the writable fields of CTRL, LEN, POLY1 and POLY2 take the data and read back with the reserved bits 0; nothing
else changes. -/
def Obligations.RegisterWritesTakeEffect : Prop :=
  ∀ (s : State) (data : Word) (rest : List HostInput) (r : Register), s.nextWrite (.register r) .word data rest →
    (r = .ctrl → ∃ t, step s = .next t ∧ t = { s with irqEn := t.irqEn, inputs := rest, resp := t.resp } ∧
      t.registerWord .ctrl = data &&& 0x1#32) ∧
    (r = .len → s.busy = false → ∃ t, step s = .next t ∧ t = { s with lenr := t.lenr, inputs := rest, resp := t.resp } ∧
      t.registerWord .len = data &&& 0x1FFFF#32) ∧
    (r = .poly1 → s.busy = false → ∃ t, step s = .next t ∧
      t = { s with poly1r := t.poly1r, inputs := rest, resp := t.resp } ∧ t.registerWord .poly1 = data &&& 0x0FFFFFFF#32) ∧
    (r = .poly2 → s.busy = false → ∃ t, step s = .next t ∧
      t = { s with poly2r := t.poly2r, inputs := rest, resp := t.resp } ∧ t.registerWord .poly2 = data &&& 0x0FFFFFFF#32)

/-- R48, R49: while BUSY is 1 a write to CMD, LEN, POLY1, POLY2 or IN is answered OKAY, dropped and sets OVR, and a write to CTRL
takes effect. Whatever BUSY is, a write to a read-only or reserved register or to OUT is answered OKAY and changes nothing. -/
def Obligations.DroppedAndIgnoredWrites : Prop :=
  ∀ (s : State) (target : Target) (size : AccessSize) (data : Word) (rest : List HostInput),
    s.nextWrite target size data rest →
    ∃ t reply, step s = .next t ∧
      (droppedWhileBusy target = true → s.busy = true →
        t = { s with ovr := true, inputs := rest, resp := some { status := .okay, data := reply } }) ∧
      (target = .register .ctrl →
        t = { s with irqEn := data.getLsbD 0, inputs := rest, resp := some { status := .okay, data := reply } }) ∧
      (readOnlyTarget target = true → t = { s with inputs := rest, resp := some { status := .okay, data := reply } })

/-- R38: while BUSY, a read of OUTLEN, ENC_STATE, BEST, PM0 to PM3 or OUT is answered with the next free value, cut to the width
of the access, and a read of any other register with its current value; while idle every register read returns its current
value. That the free value fills all 32 bits is the model's choice (log 5). -/
def Obligations.BusyReadsAreFree : Prop :=
  ∀ (s : State) (rest : List HostInput),
    (∀ r, s.nextRead (.register r) .word rest → ∃ t, step s = .next t ∧
      (s.busy = true ∧ r ∈ [.outlen, .encState, .best, .pm0, .pm1, .pm2, .pm3] →
        t.resp = some { status := .okay, data := Config.freeRead s.draws } ∧ t.draws = s.draws + 1) ∧
      (s.busy = false ∨ r ∉ [.outlen, .encState, .best, .pm0, .pm1, .pm2, .pm3] →
        t.resp = some { status := .okay, data := s.registerWord r } ∧ t.draws = s.draws)) ∧
    (∀ i size, s.nextRead (.output i) size rest → s.busy = true → ∃ t data, step s = .next t ∧
      t.resp = some { status := .okay, data := data } ∧
      data.toNat = (Config.freeRead s.draws).toNat % 2 ^ (8 * sizeBytes size) ∧ t.draws = s.draws + 1)

/-- R26, R27, R32, R33, R34, R35, R36, R37, R111: the value of each read-only register, field by field, reserved bits 0, with the
code of each command outcome in STATUS.ERR; CMD and the reserved registers read 0. -/
def Obligations.ReadOnlyRegisterValues : Prop :=
  ∀ s : State,
    (s.registerWord .status).toNat =
      (if s.phase = .idle then 0 else 1) + 2 * s.done.toNat + 256 * s.ovr.toNat + 16 *
        (match s.err with
         | .ok => 0
         | .invalidPolynomial => 1
         | .invalidInput => 2
         | .illegalCmd => 3
         | .lengthRange => 4) ∧
    (s.registerWord .outlen).toNat = s.outlenr.toNat ∧
    (s.registerWord .encState).toNat = 2 * s.r1.toNat + s.r2.toNat ∧
    (s.registerWord .best).toNat = s.bestr.toNat ∧
    (s.registerWord .pm0).toNat = s.pmv.s00.toNat * 2 ^ 31 + s.pmw.s00.toNat ∧
    (s.registerWord .pm1).toNat = s.pmv.s01.toNat * 2 ^ 31 + s.pmw.s01.toNat ∧
    (s.registerWord .pm2).toNat = s.pmv.s10.toNat * 2 ^ 31 + s.pmw.s10.toNat ∧
    (s.registerWord .pm3).toNat = s.pmv.s11.toNat * 2 ^ 31 + s.pmw.s11.toNat ∧
    (s.params.ok = true → (s.registerWord .nmax).toNat = s.params.nMax) ∧
    s.registerWord .cmd = 0 ∧ s.registerWord .reserved38 = 0 ∧ s.registerWord .reserved3C = 0

/-! ### The codec as functions -/

/-- Derived from R90 as R91 says: the code's length, its linearity over GF(2), its causality and its final state. -/
def Obligations.EncoderFunctionLaws : Prop :=
  ∀ (g1 g2 : Taps) (a b : List Bool),
    (encodeBits a g1 g2).1.length = 2 * a.length ∧
    (a.length = b.length → (encodeBits (List.zipWith (fun x y => x ^^ y) a b) g1 g2).1 =
      List.zipWith (fun x y => x ^^ y) (encodeBits a g1 g2).1 (encodeBits b g1 g2).1) ∧
    (encodeBits (a ++ b) g1 g2).1.take (2 * a.length) = (encodeBits a g1 g2).1 ∧
    (∀ x y, (encodeBits (a ++ [x, y]) g1 g2).2.toNat = 2 * y.toNat + x.toNat) ∧
    (∀ x, (encodeBits [x] g1 g2).2.toNat = 2 * x.toNat) ∧
    (encodeBits [] g1 g2).2 = 0

/-- R99, R108: the decoder's answer is a path of minimum distance: the code word of the decoded bits is as far from the received
word as the best state's metric says, and no input's code word is nearer. -/
def Obligations.DecodeIsMinimumDistance : Prop :=
  ∀ (g1 g2 : Taps) (coded : List Bool), coded.length % 2 = 0 →
    let d := decodeBits coded g1 g2
    d.bits.length = coded.length / 2 ∧
    hammingDistance coded (encodeBits d.bits g1 g2).1 = atState d.pmw d.best ∧
    ∀ bits : List Bool, bits.length = coded.length / 2 →
      atState d.pmw d.best ≤ hammingDistance coded (encodeBits bits g1 g2).1

/-- R109: with `g1[0]` or `g2[0]` set, decoding an encoded sequence gives it back; with neither, the last decoded bit is 0, so an
input that ends in 1 is not recovered. -/
def Obligations.CodecRoundTrip : Prop :=
  ∀ (g1 g2 : Taps) (bits : List Bool),
    ((g1.g0 = true ∨ g2.g0 = true) → (decodeBits (encodeBits bits g1 g2).1 g1 g2).bits = bits) ∧
    (g1.g0 = false → g2.g0 = false →
      (bits ≠ [] → (decodeBits (encodeBits bits g1 g2).1 g1 g2).bits.getLast? = some false) ∧
      (bits.getLast? = some true → (decodeBits (encodeBits bits g1 g2).1 g1 g2).bits ≠ bits))

/-- R110: with the polynomials "111" and "101", one flipped code bit is corrected, except in the last pair when the last input bit
is 1, where the decoder returns the input with its last bit cleared. -/
def Obligations.SingleErrorCorrection : Prop :=
  ∀ (bits : List Bool) (pos : Nat), bits ≠ [] → pos < 2 * bits.length →
    let g1 : Taps := { g0 := true, g1 := true, g2 := true }
    let g2 : Taps := { g0 := true, g1 := false, g2 := true }
    (decodeBits (injectErrors (encodeBits bits g1 g2).1 [pos]) g1 g2).bits =
      if 2 * bits.length ≤ pos + 2 ∧ bits.getLast? = some true then bits.dropLast ++ [false] else bits

/-- R6: `injectErrors` flips the bit at each index once per occurrence in `positions`; positions out of range do nothing. -/
def Obligations.InjectErrorsFlipsPerOccurrence : Prop :=
  ∀ (coded : List Bool) (positions : List Nat),
    (injectErrors coded positions).length = coded.length ∧
    ∀ (i : Nat) (b : Bool), coded[i]? = some b →
      (injectErrors coded positions)[i]? = some (b ^^ decide (positions.count i % 2 = 1))
end

