-- ==== Sys2Proof/Laws/State.lean ====
section
/-! SUPPORT. What each named update of the state leaves in each field, so that no later proof unfolds a record update. `_writes`
gives the fields the update writes, `_keeps` every other field; `simp` takes each equation of a conjunction as a rule of its
own. -/

namespace Sys2Proof.Machine

@[simp] theorem State.withStartFlags_writes (s : State) :
    s.withStartFlags.done = false ∧ s.withStartFlags.err = .ok :=
  ⟨rfl, rfl⟩

@[simp] theorem State.withStartFlags_keeps (s : State) :
    s.withStartFlags.r1 = s.r1 ∧ s.withStartFlags.r2 = s.r2 ∧ s.withStartFlags.tap1 = s.tap1 ∧
    s.withStartFlags.tap2 = s.tap2 ∧ s.withStartFlags.pmv = s.pmv ∧ s.withStartFlags.pmw = s.pmw ∧
    s.withStartFlags.tbm = s.tbm ∧ s.withStartFlags.tbs = s.tbs ∧ s.withStartFlags.bestr = s.bestr ∧
    s.withStartFlags.phase = s.phase ∧ s.withStartFlags.opr = s.opr ∧ s.withStartFlags.t = s.t ∧
    s.withStartFlags.nstep = s.nstep ∧ s.withStartFlags.ovr = s.ovr ∧ s.withStartFlags.irqEn = s.irqEn ∧
    s.withStartFlags.lenr = s.lenr ∧ s.withStartFlags.poly1r = s.poly1r ∧ s.withStartFlags.poly2r = s.poly2r ∧
    s.withStartFlags.outlenr = s.outlenr ∧ s.withStartFlags.inBuf = s.inBuf ∧ s.withStartFlags.outBuf = s.outBuf ∧
    s.withStartFlags.params = s.params ∧ s.withStartFlags.rst = s.rst ∧ s.withStartFlags.inputs = s.inputs ∧
    s.withStartFlags.resp = s.resp ∧ s.withStartFlags.era = s.era ∧ s.withStartFlags.draws = s.draws :=
  ⟨rfl, rfl, rfl, rfl, rfl, rfl, rfl, rfl, rfl, rfl, rfl, rfl, rfl, rfl, rfl, rfl, rfl, rfl, rfl, rfl, rfl, rfl, rfl, rfl, rfl, rfl, rfl⟩

@[simp] theorem State.withCompletionFlags_writes (e : ErrCode) (s : State) :
    (s.withCompletionFlags e).done = true ∧ (s.withCompletionFlags e).err = e :=
  ⟨rfl, rfl⟩

@[simp] theorem State.withCompletionFlags_keeps (e : ErrCode) (s : State) :
    (s.withCompletionFlags e).r1 = s.r1 ∧ (s.withCompletionFlags e).r2 = s.r2 ∧ (s.withCompletionFlags e).tap1 = s.tap1 ∧
    (s.withCompletionFlags e).tap2 = s.tap2 ∧ (s.withCompletionFlags e).pmv = s.pmv ∧ (s.withCompletionFlags e).pmw = s.pmw ∧
    (s.withCompletionFlags e).tbm = s.tbm ∧ (s.withCompletionFlags e).tbs = s.tbs ∧
    (s.withCompletionFlags e).bestr = s.bestr ∧ (s.withCompletionFlags e).phase = s.phase ∧
    (s.withCompletionFlags e).opr = s.opr ∧ (s.withCompletionFlags e).t = s.t ∧ (s.withCompletionFlags e).nstep = s.nstep ∧
    (s.withCompletionFlags e).ovr = s.ovr ∧ (s.withCompletionFlags e).irqEn = s.irqEn ∧
    (s.withCompletionFlags e).lenr = s.lenr ∧ (s.withCompletionFlags e).poly1r = s.poly1r ∧
    (s.withCompletionFlags e).poly2r = s.poly2r ∧ (s.withCompletionFlags e).outlenr = s.outlenr ∧
    (s.withCompletionFlags e).inBuf = s.inBuf ∧ (s.withCompletionFlags e).outBuf = s.outBuf ∧
    (s.withCompletionFlags e).params = s.params ∧ (s.withCompletionFlags e).rst = s.rst ∧
    (s.withCompletionFlags e).inputs = s.inputs ∧ (s.withCompletionFlags e).resp = s.resp ∧
    (s.withCompletionFlags e).era = s.era ∧ (s.withCompletionFlags e).draws = s.draws :=
  ⟨rfl, rfl, rfl, rfl, rfl, rfl, rfl, rfl, rfl, rfl, rfl, rfl, rfl, rfl, rfl, rfl, rfl, rfl, rfl, rfl, rfl, rfl, rfl, rfl, rfl, rfl, rfl⟩

@[simp] theorem State.withClearedFlags_writes (s : State) :
    s.withClearedFlags.done = false ∧ s.withClearedFlags.err = .ok ∧ s.withClearedFlags.ovr = false :=
  ⟨rfl, rfl, rfl⟩

@[simp] theorem State.withClearedFlags_keeps (s : State) :
    s.withClearedFlags.r1 = s.r1 ∧ s.withClearedFlags.r2 = s.r2 ∧ s.withClearedFlags.tap1 = s.tap1 ∧
    s.withClearedFlags.tap2 = s.tap2 ∧ s.withClearedFlags.pmv = s.pmv ∧ s.withClearedFlags.pmw = s.pmw ∧
    s.withClearedFlags.tbm = s.tbm ∧ s.withClearedFlags.tbs = s.tbs ∧ s.withClearedFlags.bestr = s.bestr ∧
    s.withClearedFlags.phase = s.phase ∧ s.withClearedFlags.opr = s.opr ∧ s.withClearedFlags.t = s.t ∧
    s.withClearedFlags.nstep = s.nstep ∧ s.withClearedFlags.irqEn = s.irqEn ∧ s.withClearedFlags.lenr = s.lenr ∧
    s.withClearedFlags.poly1r = s.poly1r ∧ s.withClearedFlags.poly2r = s.poly2r ∧ s.withClearedFlags.outlenr = s.outlenr ∧
    s.withClearedFlags.inBuf = s.inBuf ∧ s.withClearedFlags.outBuf = s.outBuf ∧ s.withClearedFlags.params = s.params ∧
    s.withClearedFlags.rst = s.rst ∧ s.withClearedFlags.inputs = s.inputs ∧ s.withClearedFlags.resp = s.resp ∧
    s.withClearedFlags.era = s.era ∧ s.withClearedFlags.draws = s.draws :=
  ⟨rfl, rfl, rfl, rfl, rfl, rfl, rfl, rfl, rfl, rfl, rfl, rfl, rfl, rfl, rfl, rfl, rfl, rfl, rfl, rfl, rfl, rfl, rfl, rfl, rfl, rfl⟩

@[simp] theorem State.withOverrun_writes (s : State) :
    s.withOverrun.ovr = true :=
  rfl

@[simp] theorem State.withOverrun_keeps (s : State) :
    s.withOverrun.r1 = s.r1 ∧ s.withOverrun.r2 = s.r2 ∧ s.withOverrun.tap1 = s.tap1 ∧ s.withOverrun.tap2 = s.tap2 ∧
    s.withOverrun.pmv = s.pmv ∧ s.withOverrun.pmw = s.pmw ∧ s.withOverrun.tbm = s.tbm ∧ s.withOverrun.tbs = s.tbs ∧
    s.withOverrun.bestr = s.bestr ∧ s.withOverrun.phase = s.phase ∧ s.withOverrun.opr = s.opr ∧ s.withOverrun.t = s.t ∧
    s.withOverrun.nstep = s.nstep ∧ s.withOverrun.done = s.done ∧ s.withOverrun.err = s.err ∧ s.withOverrun.irqEn = s.irqEn ∧
    s.withOverrun.lenr = s.lenr ∧ s.withOverrun.poly1r = s.poly1r ∧ s.withOverrun.poly2r = s.poly2r ∧
    s.withOverrun.outlenr = s.outlenr ∧ s.withOverrun.inBuf = s.inBuf ∧ s.withOverrun.outBuf = s.outBuf ∧
    s.withOverrun.params = s.params ∧ s.withOverrun.rst = s.rst ∧ s.withOverrun.inputs = s.inputs ∧
    s.withOverrun.resp = s.resp ∧ s.withOverrun.era = s.era ∧ s.withOverrun.draws = s.draws :=
  ⟨rfl, rfl, rfl, rfl, rfl, rfl, rfl, rfl, rfl, rfl, rfl, rfl, rfl, rfl, rfl, rfl, rfl, rfl, rfl, rfl, rfl, rfl, rfl, rfl, rfl, rfl, rfl, rfl⟩

@[simp] theorem State.writeOut_writes (i : Nat) (v : Byte) (s : State) :
    (s.writeOut i v).outBuf = Memory.insert s.outBuf i v :=
  rfl

@[simp] theorem State.writeOut_keeps (i : Nat) (v : Byte) (s : State) :
    (s.writeOut i v).r1 = s.r1 ∧ (s.writeOut i v).r2 = s.r2 ∧ (s.writeOut i v).tap1 = s.tap1 ∧
    (s.writeOut i v).tap2 = s.tap2 ∧ (s.writeOut i v).pmv = s.pmv ∧ (s.writeOut i v).pmw = s.pmw ∧
    (s.writeOut i v).tbm = s.tbm ∧ (s.writeOut i v).tbs = s.tbs ∧ (s.writeOut i v).bestr = s.bestr ∧
    (s.writeOut i v).phase = s.phase ∧ (s.writeOut i v).opr = s.opr ∧ (s.writeOut i v).t = s.t ∧
    (s.writeOut i v).nstep = s.nstep ∧ (s.writeOut i v).done = s.done ∧ (s.writeOut i v).err = s.err ∧
    (s.writeOut i v).ovr = s.ovr ∧ (s.writeOut i v).irqEn = s.irqEn ∧ (s.writeOut i v).lenr = s.lenr ∧
    (s.writeOut i v).poly1r = s.poly1r ∧ (s.writeOut i v).poly2r = s.poly2r ∧ (s.writeOut i v).outlenr = s.outlenr ∧
    (s.writeOut i v).inBuf = s.inBuf ∧ (s.writeOut i v).params = s.params ∧ (s.writeOut i v).rst = s.rst ∧
    (s.writeOut i v).inputs = s.inputs ∧ (s.writeOut i v).resp = s.resp ∧ (s.writeOut i v).era = s.era ∧
    (s.writeOut i v).draws = s.draws :=
  ⟨rfl, rfl, rfl, rfl, rfl, rfl, rfl, rfl, rfl, rfl, rfl, rfl, rfl, rfl, rfl, rfl, rfl, rfl, rfl, rfl, rfl, rfl, rfl, rfl, rfl, rfl, rfl, rfl⟩

@[simp] theorem State.writeTbm_writes (i : Nat) (w : PerState Bool) (s : State) :
    (s.writeTbm i w).tbm = sparseInsert s.tbm i w :=
  rfl

@[simp] theorem State.writeTbm_keeps (i : Nat) (w : PerState Bool) (s : State) :
    (s.writeTbm i w).r1 = s.r1 ∧ (s.writeTbm i w).r2 = s.r2 ∧ (s.writeTbm i w).tap1 = s.tap1 ∧
    (s.writeTbm i w).tap2 = s.tap2 ∧ (s.writeTbm i w).pmv = s.pmv ∧ (s.writeTbm i w).pmw = s.pmw ∧
    (s.writeTbm i w).tbs = s.tbs ∧ (s.writeTbm i w).bestr = s.bestr ∧ (s.writeTbm i w).phase = s.phase ∧
    (s.writeTbm i w).opr = s.opr ∧ (s.writeTbm i w).t = s.t ∧ (s.writeTbm i w).nstep = s.nstep ∧
    (s.writeTbm i w).done = s.done ∧ (s.writeTbm i w).err = s.err ∧ (s.writeTbm i w).ovr = s.ovr ∧
    (s.writeTbm i w).irqEn = s.irqEn ∧ (s.writeTbm i w).lenr = s.lenr ∧ (s.writeTbm i w).poly1r = s.poly1r ∧
    (s.writeTbm i w).poly2r = s.poly2r ∧ (s.writeTbm i w).outlenr = s.outlenr ∧ (s.writeTbm i w).inBuf = s.inBuf ∧
    (s.writeTbm i w).outBuf = s.outBuf ∧ (s.writeTbm i w).params = s.params ∧ (s.writeTbm i w).rst = s.rst ∧
    (s.writeTbm i w).inputs = s.inputs ∧ (s.writeTbm i w).resp = s.resp ∧ (s.writeTbm i w).era = s.era ∧
    (s.writeTbm i w).draws = s.draws :=
  ⟨rfl, rfl, rfl, rfl, rfl, rfl, rfl, rfl, rfl, rfl, rfl, rfl, rfl, rfl, rfl, rfl, rfl, rfl, rfl, rfl, rfl, rfl, rfl, rfl, rfl, rfl, rfl, rfl⟩

@[simp] theorem startCommand_writes (op : Operation) (s : State) :
    (startCommand op s).phase = .check ∧ (startCommand op s).opr = op ∧ (startCommand op s).t = 0 ∧
    (startCommand op s).done = false ∧ (startCommand op s).err = .ok :=
  ⟨rfl, rfl, rfl, rfl, rfl⟩

@[simp] theorem startCommand_keeps (op : Operation) (s : State) :
    (startCommand op s).r1 = s.r1 ∧ (startCommand op s).r2 = s.r2 ∧ (startCommand op s).tap1 = s.tap1 ∧
    (startCommand op s).tap2 = s.tap2 ∧ (startCommand op s).pmv = s.pmv ∧ (startCommand op s).pmw = s.pmw ∧
    (startCommand op s).tbm = s.tbm ∧ (startCommand op s).tbs = s.tbs ∧ (startCommand op s).bestr = s.bestr ∧
    (startCommand op s).nstep = s.nstep ∧ (startCommand op s).ovr = s.ovr ∧ (startCommand op s).irqEn = s.irqEn ∧
    (startCommand op s).lenr = s.lenr ∧ (startCommand op s).poly1r = s.poly1r ∧ (startCommand op s).poly2r = s.poly2r ∧
    (startCommand op s).outlenr = s.outlenr ∧ (startCommand op s).inBuf = s.inBuf ∧ (startCommand op s).outBuf = s.outBuf ∧
    (startCommand op s).params = s.params ∧ (startCommand op s).rst = s.rst ∧ (startCommand op s).inputs = s.inputs ∧
    (startCommand op s).resp = s.resp ∧ (startCommand op s).era = s.era ∧ (startCommand op s).draws = s.draws :=
  ⟨rfl, rfl, rfl, rfl, rfl, rfl, rfl, rfl, rfl, rfl, rfl, rfl, rfl, rfl, rfl, rfl, rfl, rfl, rfl, rfl, rfl, rfl, rfl, rfl⟩

@[simp] theorem raiseError_writes (e : ErrCode) (s : State) :
    (raiseError e s).phase = .idle ∧ (raiseError e s).opr = .none ∧ (raiseError e s).done = true ∧ (raiseError e s).err = e ∧
    (raiseError e s).outlenr = 0 :=
  ⟨rfl, rfl, rfl, rfl, rfl⟩

@[simp] theorem raiseError_keeps (e : ErrCode) (s : State) :
    (raiseError e s).r1 = s.r1 ∧ (raiseError e s).r2 = s.r2 ∧ (raiseError e s).tap1 = s.tap1 ∧
    (raiseError e s).tap2 = s.tap2 ∧ (raiseError e s).pmv = s.pmv ∧ (raiseError e s).pmw = s.pmw ∧
    (raiseError e s).tbm = s.tbm ∧ (raiseError e s).tbs = s.tbs ∧ (raiseError e s).bestr = s.bestr ∧
    (raiseError e s).t = s.t ∧ (raiseError e s).nstep = s.nstep ∧ (raiseError e s).ovr = s.ovr ∧
    (raiseError e s).irqEn = s.irqEn ∧ (raiseError e s).lenr = s.lenr ∧ (raiseError e s).poly1r = s.poly1r ∧
    (raiseError e s).poly2r = s.poly2r ∧ (raiseError e s).inBuf = s.inBuf ∧ (raiseError e s).outBuf = s.outBuf ∧
    (raiseError e s).params = s.params ∧ (raiseError e s).rst = s.rst ∧ (raiseError e s).inputs = s.inputs ∧
    (raiseError e s).resp = s.resp ∧ (raiseError e s).era = s.era ∧ (raiseError e s).draws = s.draws :=
  ⟨rfl, rfl, rfl, rfl, rfl, rfl, rfl, rfl, rfl, rfl, rfl, rfl, rfl, rfl, rfl, rfl, rfl, rfl, rfl, rfl, rfl, rfl, rfl, rfl⟩

@[simp] theorem completeIllegal_writes (s : State) :
    (completeIllegal s).done = true ∧ (completeIllegal s).err = .illegalCmd ∧ (completeIllegal s).outlenr = 0 :=
  ⟨rfl, rfl, rfl⟩

@[simp] theorem completeIllegal_keeps (s : State) :
    (completeIllegal s).r1 = s.r1 ∧ (completeIllegal s).r2 = s.r2 ∧ (completeIllegal s).tap1 = s.tap1 ∧
    (completeIllegal s).tap2 = s.tap2 ∧ (completeIllegal s).pmv = s.pmv ∧ (completeIllegal s).pmw = s.pmw ∧
    (completeIllegal s).tbm = s.tbm ∧ (completeIllegal s).tbs = s.tbs ∧ (completeIllegal s).bestr = s.bestr ∧
    (completeIllegal s).phase = s.phase ∧ (completeIllegal s).opr = s.opr ∧ (completeIllegal s).t = s.t ∧
    (completeIllegal s).nstep = s.nstep ∧ (completeIllegal s).ovr = s.ovr ∧ (completeIllegal s).irqEn = s.irqEn ∧
    (completeIllegal s).lenr = s.lenr ∧ (completeIllegal s).poly1r = s.poly1r ∧ (completeIllegal s).poly2r = s.poly2r ∧
    (completeIllegal s).inBuf = s.inBuf ∧ (completeIllegal s).outBuf = s.outBuf ∧ (completeIllegal s).params = s.params ∧
    (completeIllegal s).rst = s.rst ∧ (completeIllegal s).inputs = s.inputs ∧ (completeIllegal s).resp = s.resp ∧
    (completeIllegal s).era = s.era ∧ (completeIllegal s).draws = s.draws :=
  ⟨rfl, rfl, rfl, rfl, rfl, rfl, rfl, rfl, rfl, rfl, rfl, rfl, rfl, rfl, rfl, rfl, rfl, rfl, rfl, rfl, rfl, rfl, rfl, rfl, rfl, rfl⟩

@[simp] theorem completeCommand_writes (s : State) :
    (completeCommand s).phase = .idle ∧ (completeCommand s).opr = .none ∧ (completeCommand s).done = true ∧
    (completeCommand s).err = .ok ∧ (completeCommand s).outlenr = if s.opr = .encode then 2 * s.nstep else s.nstep :=
  ⟨rfl, rfl, rfl, rfl, rfl⟩

@[simp] theorem completeCommand_keeps (s : State) :
    (completeCommand s).r1 = s.r1 ∧ (completeCommand s).r2 = s.r2 ∧ (completeCommand s).tap1 = s.tap1 ∧
    (completeCommand s).tap2 = s.tap2 ∧ (completeCommand s).pmv = s.pmv ∧ (completeCommand s).pmw = s.pmw ∧
    (completeCommand s).tbm = s.tbm ∧ (completeCommand s).tbs = s.tbs ∧ (completeCommand s).bestr = s.bestr ∧
    (completeCommand s).t = s.t ∧ (completeCommand s).nstep = s.nstep ∧ (completeCommand s).ovr = s.ovr ∧
    (completeCommand s).irqEn = s.irqEn ∧ (completeCommand s).lenr = s.lenr ∧ (completeCommand s).poly1r = s.poly1r ∧
    (completeCommand s).poly2r = s.poly2r ∧ (completeCommand s).inBuf = s.inBuf ∧ (completeCommand s).outBuf = s.outBuf ∧
    (completeCommand s).params = s.params ∧ (completeCommand s).rst = s.rst ∧ (completeCommand s).inputs = s.inputs ∧
    (completeCommand s).resp = s.resp ∧ (completeCommand s).era = s.era ∧ (completeCommand s).draws = s.draws :=
  ⟨rfl, rfl, rfl, rfl, rfl, rfl, rfl, rfl, rfl, rfl, rfl, rfl, rfl, rfl, rfl, rfl, rfl, rfl, rfl, rfl, rfl, rfl, rfl, rfl⟩

@[simp] theorem clearResults_writes (s : State) :
    (clearResults s).r1 = false ∧ (clearResults s).r2 = false ∧ (clearResults s).pmv = (perState fun _ => false) ∧
    (clearResults s).pmw = (perState fun _ => 0) ∧ (clearResults s).tbs = 0 ∧ (clearResults s).bestr = 0 ∧
    (clearResults s).done = false ∧ (clearResults s).err = .ok ∧ (clearResults s).ovr = false ∧
    (clearResults s).outlenr = 0 :=
  ⟨rfl, rfl, rfl, rfl, rfl, rfl, rfl, rfl, rfl, rfl⟩

@[simp] theorem clearResults_keeps (s : State) :
    (clearResults s).tap1 = s.tap1 ∧ (clearResults s).tap2 = s.tap2 ∧ (clearResults s).tbm = s.tbm ∧
    (clearResults s).phase = s.phase ∧ (clearResults s).opr = s.opr ∧ (clearResults s).t = s.t ∧
    (clearResults s).nstep = s.nstep ∧ (clearResults s).irqEn = s.irqEn ∧ (clearResults s).lenr = s.lenr ∧
    (clearResults s).poly1r = s.poly1r ∧ (clearResults s).poly2r = s.poly2r ∧ (clearResults s).inBuf = s.inBuf ∧
    (clearResults s).outBuf = s.outBuf ∧ (clearResults s).params = s.params ∧ (clearResults s).rst = s.rst ∧
    (clearResults s).inputs = s.inputs ∧ (clearResults s).resp = s.resp ∧ (clearResults s).era = s.era ∧
    (clearResults s).draws = s.draws :=
  ⟨rfl, rfl, rfl, rfl, rfl, rfl, rfl, rfl, rfl, rfl, rfl, rfl, rfl, rfl, rfl, rfl, rfl, rfl, rfl⟩

@[simp] theorem State.resetBlock_writes (s : State) :
    s.resetBlock.r1 = false ∧ s.resetBlock.r2 = false ∧ s.resetBlock.tap1 = ⟨false, false, false⟩ ∧
    s.resetBlock.tap2 = ⟨false, false, false⟩ ∧ s.resetBlock.pmv = ⟨false, false, false, false⟩ ∧
    s.resetBlock.pmw = ⟨0, 0, 0, 0⟩ ∧ s.resetBlock.tbm = [] ∧ s.resetBlock.tbs = 0 ∧ s.resetBlock.bestr = 0 ∧
    s.resetBlock.phase = .idle ∧ s.resetBlock.opr = .none ∧ s.resetBlock.t = 0 ∧ s.resetBlock.nstep = 0 ∧
    s.resetBlock.done = false ∧ s.resetBlock.err = .ok ∧ s.resetBlock.ovr = false ∧ s.resetBlock.irqEn = false ∧
    s.resetBlock.lenr = 0 ∧ s.resetBlock.poly1r = 0x3313131 ∧ s.resetBlock.poly2r = 0x3313031 ∧ s.resetBlock.outlenr = 0 ∧
    s.resetBlock.inBuf = [] ∧ s.resetBlock.outBuf = [] ∧ s.resetBlock.era = s.era + 1 :=
  ⟨rfl, rfl, rfl, rfl, rfl, rfl, rfl, rfl, rfl, rfl, rfl, rfl, rfl, rfl, rfl, rfl, rfl, rfl, rfl, rfl, rfl, rfl, rfl, rfl⟩

@[simp] theorem State.resetBlock_keeps (s : State) :
    s.resetBlock.params = s.params ∧ s.resetBlock.rst = s.rst ∧ s.resetBlock.inputs = s.inputs ∧ s.resetBlock.resp = s.resp ∧
    s.resetBlock.draws = s.draws :=
  ⟨rfl, rfl, rfl, rfl, rfl⟩

@[simp] theorem encoderInit_writes (s : State) :
    (encoderInit s).r1 = false ∧ (encoderInit s).r2 = false :=
  ⟨rfl, rfl⟩

@[simp] theorem encoderInit_keeps (s : State) :
    (encoderInit s).tap1 = s.tap1 ∧ (encoderInit s).tap2 = s.tap2 ∧ (encoderInit s).pmv = s.pmv ∧
    (encoderInit s).pmw = s.pmw ∧ (encoderInit s).tbm = s.tbm ∧ (encoderInit s).tbs = s.tbs ∧
    (encoderInit s).bestr = s.bestr ∧ (encoderInit s).phase = s.phase ∧ (encoderInit s).opr = s.opr ∧
    (encoderInit s).t = s.t ∧ (encoderInit s).nstep = s.nstep ∧ (encoderInit s).done = s.done ∧ (encoderInit s).err = s.err ∧
    (encoderInit s).ovr = s.ovr ∧ (encoderInit s).irqEn = s.irqEn ∧ (encoderInit s).lenr = s.lenr ∧
    (encoderInit s).poly1r = s.poly1r ∧ (encoderInit s).poly2r = s.poly2r ∧ (encoderInit s).outlenr = s.outlenr ∧
    (encoderInit s).inBuf = s.inBuf ∧ (encoderInit s).outBuf = s.outBuf ∧ (encoderInit s).params = s.params ∧
    (encoderInit s).rst = s.rst ∧ (encoderInit s).inputs = s.inputs ∧ (encoderInit s).resp = s.resp ∧
    (encoderInit s).era = s.era ∧ (encoderInit s).draws = s.draws :=
  ⟨rfl, rfl, rfl, rfl, rfl, rfl, rfl, rfl, rfl, rfl, rfl, rfl, rfl, rfl, rfl, rfl, rfl, rfl, rfl, rfl, rfl, rfl, rfl, rfl, rfl, rfl, rfl⟩

@[simp] theorem encoderStep_writes (b : Bool) (s : State) :
    (encoderStep b s).r1 = b ∧ (encoderStep b s).r2 = s.r1 ∧ (encoderStep b s).t = s.t + 1 ∧
    (encoderStep b s).outBuf = Memory.insert (Memory.insert s.outBuf (2 * s.t.toNat) (symbolOf (generatorOutput b s.encState s.tap1)))
        (2 * s.t.toNat + 1) (symbolOf (generatorOutput b s.encState s.tap2)) :=
  ⟨rfl, rfl, rfl, rfl⟩

@[simp] theorem encoderStep_keeps (b : Bool) (s : State) :
    (encoderStep b s).tap1 = s.tap1 ∧ (encoderStep b s).tap2 = s.tap2 ∧ (encoderStep b s).pmv = s.pmv ∧
    (encoderStep b s).pmw = s.pmw ∧ (encoderStep b s).tbm = s.tbm ∧ (encoderStep b s).tbs = s.tbs ∧
    (encoderStep b s).bestr = s.bestr ∧ (encoderStep b s).phase = s.phase ∧ (encoderStep b s).opr = s.opr ∧
    (encoderStep b s).nstep = s.nstep ∧ (encoderStep b s).done = s.done ∧ (encoderStep b s).err = s.err ∧
    (encoderStep b s).ovr = s.ovr ∧ (encoderStep b s).irqEn = s.irqEn ∧ (encoderStep b s).lenr = s.lenr ∧
    (encoderStep b s).poly1r = s.poly1r ∧ (encoderStep b s).poly2r = s.poly2r ∧ (encoderStep b s).outlenr = s.outlenr ∧
    (encoderStep b s).inBuf = s.inBuf ∧ (encoderStep b s).params = s.params ∧ (encoderStep b s).rst = s.rst ∧
    (encoderStep b s).inputs = s.inputs ∧ (encoderStep b s).resp = s.resp ∧ (encoderStep b s).era = s.era ∧
    (encoderStep b s).draws = s.draws :=
  ⟨rfl, rfl, rfl, rfl, rfl, rfl, rfl, rfl, rfl, rfl, rfl, rfl, rfl, rfl, rfl, rfl, rfl, rfl, rfl, rfl, rfl, rfl, rfl, rfl, rfl⟩

@[simp] theorem metricInit_writes (s : State) :
    (metricInit s).pmv = (perState fun d => decide (d = 0)) ∧ (metricInit s).pmw = (perState fun _ => 0) :=
  ⟨rfl, rfl⟩

@[simp] theorem metricInit_keeps (s : State) :
    (metricInit s).r1 = s.r1 ∧ (metricInit s).r2 = s.r2 ∧ (metricInit s).tap1 = s.tap1 ∧ (metricInit s).tap2 = s.tap2 ∧
    (metricInit s).tbm = s.tbm ∧ (metricInit s).tbs = s.tbs ∧ (metricInit s).bestr = s.bestr ∧
    (metricInit s).phase = s.phase ∧ (metricInit s).opr = s.opr ∧ (metricInit s).t = s.t ∧ (metricInit s).nstep = s.nstep ∧
    (metricInit s).done = s.done ∧ (metricInit s).err = s.err ∧ (metricInit s).ovr = s.ovr ∧ (metricInit s).irqEn = s.irqEn ∧
    (metricInit s).lenr = s.lenr ∧ (metricInit s).poly1r = s.poly1r ∧ (metricInit s).poly2r = s.poly2r ∧
    (metricInit s).outlenr = s.outlenr ∧ (metricInit s).inBuf = s.inBuf ∧ (metricInit s).outBuf = s.outBuf ∧
    (metricInit s).params = s.params ∧ (metricInit s).rst = s.rst ∧ (metricInit s).inputs = s.inputs ∧
    (metricInit s).resp = s.resp ∧ (metricInit s).era = s.era ∧ (metricInit s).draws = s.draws :=
  ⟨rfl, rfl, rfl, rfl, rfl, rfl, rfl, rfl, rfl, rfl, rfl, rfl, rfl, rfl, rfl, rfl, rfl, rfl, rfl, rfl, rfl, rfl, rfl, rfl, rfl, rfl, rfl⟩

@[simp] theorem acsStep_writes (r0 r1 : Bool) (s : State) :
    (acsStep r0 r1 s).pmv = (perState fun d => (acsDestination s r0 r1 d).1.isSome) ∧
    (acsStep r0 r1 s).pmw = (perState fun d => BitVec.ofNat 17 ((acsDestination s r0 r1 d).1.getD 0)) ∧
    (acsStep r0 r1 s).tbm = sparseInsert s.tbm s.t.toNat (perState fun d => (acsDestination s r0 r1 d).2) ∧
    (acsStep r0 r1 s).t = s.t + 1 :=
  ⟨rfl, rfl, rfl, rfl⟩

@[simp] theorem acsStep_keeps (r0 r1 : Bool) (s : State) :
    (acsStep r0 r1 s).r1 = s.r1 ∧ (acsStep r0 r1 s).r2 = s.r2 ∧ (acsStep r0 r1 s).tap1 = s.tap1 ∧
    (acsStep r0 r1 s).tap2 = s.tap2 ∧ (acsStep r0 r1 s).tbs = s.tbs ∧ (acsStep r0 r1 s).bestr = s.bestr ∧
    (acsStep r0 r1 s).phase = s.phase ∧ (acsStep r0 r1 s).opr = s.opr ∧ (acsStep r0 r1 s).nstep = s.nstep ∧
    (acsStep r0 r1 s).done = s.done ∧ (acsStep r0 r1 s).err = s.err ∧ (acsStep r0 r1 s).ovr = s.ovr ∧
    (acsStep r0 r1 s).irqEn = s.irqEn ∧ (acsStep r0 r1 s).lenr = s.lenr ∧ (acsStep r0 r1 s).poly1r = s.poly1r ∧
    (acsStep r0 r1 s).poly2r = s.poly2r ∧ (acsStep r0 r1 s).outlenr = s.outlenr ∧ (acsStep r0 r1 s).inBuf = s.inBuf ∧
    (acsStep r0 r1 s).outBuf = s.outBuf ∧ (acsStep r0 r1 s).params = s.params ∧ (acsStep r0 r1 s).rst = s.rst ∧
    (acsStep r0 r1 s).inputs = s.inputs ∧ (acsStep r0 r1 s).resp = s.resp ∧ (acsStep r0 r1 s).era = s.era ∧
    (acsStep r0 r1 s).draws = s.draws :=
  ⟨rfl, rfl, rfl, rfl, rfl, rfl, rfl, rfl, rfl, rfl, rfl, rfl, rfl, rfl, rfl, rfl, rfl, rfl, rfl, rfl, rfl, rfl, rfl, rfl, rfl⟩

@[simp] theorem tracebackStep_writes (s : State) :
    (tracebackStep s).tbs = predecessor s.tbs (atState (s.tbmWord (s.t.toNat - 1)) s.tbs) ∧ (tracebackStep s).t = s.t - 1 ∧
    (tracebackStep s).outBuf = Memory.insert s.outBuf (s.t.toNat - 1) (symbolOf (trellisR1 s.tbs)) :=
  ⟨rfl, rfl, rfl⟩

@[simp] theorem tracebackStep_keeps (s : State) :
    (tracebackStep s).r1 = s.r1 ∧ (tracebackStep s).r2 = s.r2 ∧ (tracebackStep s).tap1 = s.tap1 ∧
    (tracebackStep s).tap2 = s.tap2 ∧ (tracebackStep s).pmv = s.pmv ∧ (tracebackStep s).pmw = s.pmw ∧
    (tracebackStep s).tbm = s.tbm ∧ (tracebackStep s).bestr = s.bestr ∧ (tracebackStep s).phase = s.phase ∧
    (tracebackStep s).opr = s.opr ∧ (tracebackStep s).nstep = s.nstep ∧ (tracebackStep s).done = s.done ∧
    (tracebackStep s).err = s.err ∧ (tracebackStep s).ovr = s.ovr ∧ (tracebackStep s).irqEn = s.irqEn ∧
    (tracebackStep s).lenr = s.lenr ∧ (tracebackStep s).poly1r = s.poly1r ∧ (tracebackStep s).poly2r = s.poly2r ∧
    (tracebackStep s).outlenr = s.outlenr ∧ (tracebackStep s).inBuf = s.inBuf ∧ (tracebackStep s).params = s.params ∧
    (tracebackStep s).rst = s.rst ∧ (tracebackStep s).inputs = s.inputs ∧ (tracebackStep s).resp = s.resp ∧
    (tracebackStep s).era = s.era ∧ (tracebackStep s).draws = s.draws :=
  ⟨rfl, rfl, rfl, rfl, rfl, rfl, rfl, rfl, rfl, rfl, rfl, rfl, rfl, rfl, rfl, rfl, rfl, rfl, rfl, rfl, rfl, rfl, rfl, rfl, rfl, rfl⟩

@[simp] theorem latchTaps_writes (s : State) :
    (latchTaps s).tap1 = polyTaps s.poly1r ∧ (latchTaps s).tap2 = polyTaps s.poly2r :=
  ⟨rfl, rfl⟩

@[simp] theorem latchTaps_keeps (s : State) :
    (latchTaps s).r1 = s.r1 ∧ (latchTaps s).r2 = s.r2 ∧ (latchTaps s).pmv = s.pmv ∧ (latchTaps s).pmw = s.pmw ∧
    (latchTaps s).tbm = s.tbm ∧ (latchTaps s).tbs = s.tbs ∧ (latchTaps s).bestr = s.bestr ∧ (latchTaps s).phase = s.phase ∧
    (latchTaps s).opr = s.opr ∧ (latchTaps s).t = s.t ∧ (latchTaps s).nstep = s.nstep ∧ (latchTaps s).done = s.done ∧
    (latchTaps s).err = s.err ∧ (latchTaps s).ovr = s.ovr ∧ (latchTaps s).irqEn = s.irqEn ∧ (latchTaps s).lenr = s.lenr ∧
    (latchTaps s).poly1r = s.poly1r ∧ (latchTaps s).poly2r = s.poly2r ∧ (latchTaps s).outlenr = s.outlenr ∧
    (latchTaps s).inBuf = s.inBuf ∧ (latchTaps s).outBuf = s.outBuf ∧ (latchTaps s).params = s.params ∧
    (latchTaps s).rst = s.rst ∧ (latchTaps s).inputs = s.inputs ∧ (latchTaps s).resp = s.resp ∧ (latchTaps s).era = s.era ∧
    (latchTaps s).draws = s.draws :=
  ⟨rfl, rfl, rfl, rfl, rfl, rfl, rfl, rfl, rfl, rfl, rfl, rfl, rfl, rfl, rfl, rfl, rfl, rfl, rfl, rfl, rfl, rfl, rfl, rfl, rfl, rfl, rfl⟩

@[simp] theorem enterEncode_writes (s : State) :
    (enterEncode s).r1 = false ∧ (enterEncode s).r2 = false ∧ (enterEncode s).tap1 = polyTaps s.poly1r ∧
    (enterEncode s).tap2 = polyTaps s.poly2r ∧ (enterEncode s).phase = .enc ∧ (enterEncode s).t = 0 ∧
    (enterEncode s).nstep = s.lenr :=
  ⟨rfl, rfl, rfl, rfl, rfl, rfl, rfl⟩

@[simp] theorem enterEncode_keeps (s : State) :
    (enterEncode s).pmv = s.pmv ∧ (enterEncode s).pmw = s.pmw ∧ (enterEncode s).tbm = s.tbm ∧ (enterEncode s).tbs = s.tbs ∧
    (enterEncode s).bestr = s.bestr ∧ (enterEncode s).opr = s.opr ∧ (enterEncode s).done = s.done ∧
    (enterEncode s).err = s.err ∧ (enterEncode s).ovr = s.ovr ∧ (enterEncode s).irqEn = s.irqEn ∧
    (enterEncode s).lenr = s.lenr ∧ (enterEncode s).poly1r = s.poly1r ∧ (enterEncode s).poly2r = s.poly2r ∧
    (enterEncode s).outlenr = s.outlenr ∧ (enterEncode s).inBuf = s.inBuf ∧ (enterEncode s).outBuf = s.outBuf ∧
    (enterEncode s).params = s.params ∧ (enterEncode s).rst = s.rst ∧ (enterEncode s).inputs = s.inputs ∧
    (enterEncode s).resp = s.resp ∧ (enterEncode s).era = s.era ∧ (enterEncode s).draws = s.draws :=
  ⟨rfl, rfl, rfl, rfl, rfl, rfl, rfl, rfl, rfl, rfl, rfl, rfl, rfl, rfl, rfl, rfl, rfl, rfl, rfl, rfl, rfl, rfl⟩

@[simp] theorem enterDecode_writes (s : State) :
    (enterDecode s).tap1 = polyTaps s.poly1r ∧ (enterDecode s).tap2 = polyTaps s.poly2r ∧
    (enterDecode s).pmv = (perState fun d => decide (d = 0)) ∧ (enterDecode s).pmw = (perState fun _ => 0) ∧
    (enterDecode s).phase = .acs ∧ (enterDecode s).t = 0 ∧ (enterDecode s).nstep = s.lenr >>> 1 :=
  ⟨rfl, rfl, rfl, rfl, rfl, rfl, rfl⟩

@[simp] theorem enterDecode_keeps (s : State) :
    (enterDecode s).r1 = s.r1 ∧ (enterDecode s).r2 = s.r2 ∧ (enterDecode s).tbm = s.tbm ∧ (enterDecode s).tbs = s.tbs ∧
    (enterDecode s).bestr = s.bestr ∧ (enterDecode s).opr = s.opr ∧ (enterDecode s).done = s.done ∧
    (enterDecode s).err = s.err ∧ (enterDecode s).ovr = s.ovr ∧ (enterDecode s).irqEn = s.irqEn ∧
    (enterDecode s).lenr = s.lenr ∧ (enterDecode s).poly1r = s.poly1r ∧ (enterDecode s).poly2r = s.poly2r ∧
    (enterDecode s).outlenr = s.outlenr ∧ (enterDecode s).inBuf = s.inBuf ∧ (enterDecode s).outBuf = s.outBuf ∧
    (enterDecode s).params = s.params ∧ (enterDecode s).rst = s.rst ∧ (enterDecode s).inputs = s.inputs ∧
    (enterDecode s).resp = s.resp ∧ (enterDecode s).era = s.era ∧ (enterDecode s).draws = s.draws :=
  ⟨rfl, rfl, rfl, rfl, rfl, rfl, rfl, rfl, rfl, rfl, rfl, rfl, rfl, rfl, rfl, rfl, rfl, rfl, rfl, rfl, rfl, rfl⟩

@[simp] theorem State.withInputs_writes (l : List HostInput) (s : State) :
    (s.withInputs l).inputs = l :=
  rfl

@[simp] theorem State.withInputs_keeps (l : List HostInput) (s : State) :
    (s.withInputs l).r1 = s.r1 ∧ (s.withInputs l).r2 = s.r2 ∧ (s.withInputs l).tap1 = s.tap1 ∧
    (s.withInputs l).tap2 = s.tap2 ∧ (s.withInputs l).pmv = s.pmv ∧ (s.withInputs l).pmw = s.pmw ∧
    (s.withInputs l).tbm = s.tbm ∧ (s.withInputs l).tbs = s.tbs ∧ (s.withInputs l).bestr = s.bestr ∧
    (s.withInputs l).phase = s.phase ∧ (s.withInputs l).opr = s.opr ∧ (s.withInputs l).t = s.t ∧
    (s.withInputs l).nstep = s.nstep ∧ (s.withInputs l).done = s.done ∧ (s.withInputs l).err = s.err ∧
    (s.withInputs l).ovr = s.ovr ∧ (s.withInputs l).irqEn = s.irqEn ∧ (s.withInputs l).lenr = s.lenr ∧
    (s.withInputs l).poly1r = s.poly1r ∧ (s.withInputs l).poly2r = s.poly2r ∧ (s.withInputs l).outlenr = s.outlenr ∧
    (s.withInputs l).inBuf = s.inBuf ∧ (s.withInputs l).outBuf = s.outBuf ∧ (s.withInputs l).params = s.params ∧
    (s.withInputs l).rst = s.rst ∧ (s.withInputs l).resp = s.resp ∧ (s.withInputs l).era = s.era ∧
    (s.withInputs l).draws = s.draws :=
  ⟨rfl, rfl, rfl, rfl, rfl, rfl, rfl, rfl, rfl, rfl, rfl, rfl, rfl, rfl, rfl, rfl, rfl, rfl, rfl, rfl, rfl, rfl, rfl, rfl, rfl, rfl, rfl, rfl⟩

@[simp] theorem enterSelect_writes (s : State) :
    (enterSelect s).phase = .sel :=
  rfl

@[simp] theorem enterSelect_keeps (s : State) :
    (enterSelect s).r1 = s.r1 ∧ (enterSelect s).r2 = s.r2 ∧ (enterSelect s).tap1 = s.tap1 ∧ (enterSelect s).tap2 = s.tap2 ∧
    (enterSelect s).pmv = s.pmv ∧ (enterSelect s).pmw = s.pmw ∧ (enterSelect s).tbm = s.tbm ∧ (enterSelect s).tbs = s.tbs ∧
    (enterSelect s).bestr = s.bestr ∧ (enterSelect s).opr = s.opr ∧ (enterSelect s).t = s.t ∧
    (enterSelect s).nstep = s.nstep ∧ (enterSelect s).done = s.done ∧ (enterSelect s).err = s.err ∧
    (enterSelect s).ovr = s.ovr ∧ (enterSelect s).irqEn = s.irqEn ∧ (enterSelect s).lenr = s.lenr ∧
    (enterSelect s).poly1r = s.poly1r ∧ (enterSelect s).poly2r = s.poly2r ∧ (enterSelect s).outlenr = s.outlenr ∧
    (enterSelect s).inBuf = s.inBuf ∧ (enterSelect s).outBuf = s.outBuf ∧ (enterSelect s).params = s.params ∧
    (enterSelect s).rst = s.rst ∧ (enterSelect s).inputs = s.inputs ∧ (enterSelect s).resp = s.resp ∧
    (enterSelect s).era = s.era ∧ (enterSelect s).draws = s.draws :=
  ⟨rfl, rfl, rfl, rfl, rfl, rfl, rfl, rfl, rfl, rfl, rfl, rfl, rfl, rfl, rfl, rfl, rfl, rfl, rfl, rfl, rfl, rfl, rfl, rfl, rfl, rfl, rfl, rfl⟩

@[simp] theorem selectBest_writes (k : TrellisState) (s : State) :
    (selectBest k s).tbs = k ∧ (selectBest k s).bestr = k ∧ (selectBest k s).phase = .tb :=
  ⟨rfl, rfl, rfl⟩

@[simp] theorem selectBest_keeps (k : TrellisState) (s : State) :
    (selectBest k s).r1 = s.r1 ∧ (selectBest k s).r2 = s.r2 ∧ (selectBest k s).tap1 = s.tap1 ∧
    (selectBest k s).tap2 = s.tap2 ∧ (selectBest k s).pmv = s.pmv ∧ (selectBest k s).pmw = s.pmw ∧
    (selectBest k s).tbm = s.tbm ∧ (selectBest k s).opr = s.opr ∧ (selectBest k s).t = s.t ∧
    (selectBest k s).nstep = s.nstep ∧ (selectBest k s).done = s.done ∧ (selectBest k s).err = s.err ∧
    (selectBest k s).ovr = s.ovr ∧ (selectBest k s).irqEn = s.irqEn ∧ (selectBest k s).lenr = s.lenr ∧
    (selectBest k s).poly1r = s.poly1r ∧ (selectBest k s).poly2r = s.poly2r ∧ (selectBest k s).outlenr = s.outlenr ∧
    (selectBest k s).inBuf = s.inBuf ∧ (selectBest k s).outBuf = s.outBuf ∧ (selectBest k s).params = s.params ∧
    (selectBest k s).rst = s.rst ∧ (selectBest k s).inputs = s.inputs ∧ (selectBest k s).resp = s.resp ∧
    (selectBest k s).era = s.era ∧ (selectBest k s).draws = s.draws :=
  ⟨rfl, rfl, rfl, rfl, rfl, rfl, rfl, rfl, rfl, rfl, rfl, rfl, rfl, rfl, rfl, rfl, rfl, rfl, rfl, rfl, rfl, rfl, rfl, rfl, rfl, rfl⟩

@[simp] theorem writeCtrl_writes (data : Word) (s : State) :
    (writeCtrl data s).irqEn = data.getLsbD 0 :=
  rfl

@[simp] theorem writeCtrl_keeps (data : Word) (s : State) :
    (writeCtrl data s).r1 = s.r1 ∧ (writeCtrl data s).r2 = s.r2 ∧ (writeCtrl data s).tap1 = s.tap1 ∧
    (writeCtrl data s).tap2 = s.tap2 ∧ (writeCtrl data s).pmv = s.pmv ∧ (writeCtrl data s).pmw = s.pmw ∧
    (writeCtrl data s).tbm = s.tbm ∧ (writeCtrl data s).tbs = s.tbs ∧ (writeCtrl data s).bestr = s.bestr ∧
    (writeCtrl data s).phase = s.phase ∧ (writeCtrl data s).opr = s.opr ∧ (writeCtrl data s).t = s.t ∧
    (writeCtrl data s).nstep = s.nstep ∧ (writeCtrl data s).done = s.done ∧ (writeCtrl data s).err = s.err ∧
    (writeCtrl data s).ovr = s.ovr ∧ (writeCtrl data s).lenr = s.lenr ∧ (writeCtrl data s).poly1r = s.poly1r ∧
    (writeCtrl data s).poly2r = s.poly2r ∧ (writeCtrl data s).outlenr = s.outlenr ∧ (writeCtrl data s).inBuf = s.inBuf ∧
    (writeCtrl data s).outBuf = s.outBuf ∧ (writeCtrl data s).params = s.params ∧ (writeCtrl data s).rst = s.rst ∧
    (writeCtrl data s).inputs = s.inputs ∧ (writeCtrl data s).resp = s.resp ∧ (writeCtrl data s).era = s.era ∧
    (writeCtrl data s).draws = s.draws :=
  ⟨rfl, rfl, rfl, rfl, rfl, rfl, rfl, rfl, rfl, rfl, rfl, rfl, rfl, rfl, rfl, rfl, rfl, rfl, rfl, rfl, rfl, rfl, rfl, rfl, rfl, rfl, rfl, rfl⟩

@[simp] theorem writeLen_writes (data : Word) (s : State) :
    (writeLen data s).lenr = data.setWidth 17 :=
  rfl

@[simp] theorem writeLen_keeps (data : Word) (s : State) :
    (writeLen data s).r1 = s.r1 ∧ (writeLen data s).r2 = s.r2 ∧ (writeLen data s).tap1 = s.tap1 ∧
    (writeLen data s).tap2 = s.tap2 ∧ (writeLen data s).pmv = s.pmv ∧ (writeLen data s).pmw = s.pmw ∧
    (writeLen data s).tbm = s.tbm ∧ (writeLen data s).tbs = s.tbs ∧ (writeLen data s).bestr = s.bestr ∧
    (writeLen data s).phase = s.phase ∧ (writeLen data s).opr = s.opr ∧ (writeLen data s).t = s.t ∧
    (writeLen data s).nstep = s.nstep ∧ (writeLen data s).done = s.done ∧ (writeLen data s).err = s.err ∧
    (writeLen data s).ovr = s.ovr ∧ (writeLen data s).irqEn = s.irqEn ∧ (writeLen data s).poly1r = s.poly1r ∧
    (writeLen data s).poly2r = s.poly2r ∧ (writeLen data s).outlenr = s.outlenr ∧ (writeLen data s).inBuf = s.inBuf ∧
    (writeLen data s).outBuf = s.outBuf ∧ (writeLen data s).params = s.params ∧ (writeLen data s).rst = s.rst ∧
    (writeLen data s).inputs = s.inputs ∧ (writeLen data s).resp = s.resp ∧ (writeLen data s).era = s.era ∧
    (writeLen data s).draws = s.draws :=
  ⟨rfl, rfl, rfl, rfl, rfl, rfl, rfl, rfl, rfl, rfl, rfl, rfl, rfl, rfl, rfl, rfl, rfl, rfl, rfl, rfl, rfl, rfl, rfl, rfl, rfl, rfl, rfl, rfl⟩

@[simp] theorem writePoly1_writes (data : Word) (s : State) :
    (writePoly1 data s).poly1r = data.setWidth 28 :=
  rfl

@[simp] theorem writePoly1_keeps (data : Word) (s : State) :
    (writePoly1 data s).r1 = s.r1 ∧ (writePoly1 data s).r2 = s.r2 ∧ (writePoly1 data s).tap1 = s.tap1 ∧
    (writePoly1 data s).tap2 = s.tap2 ∧ (writePoly1 data s).pmv = s.pmv ∧ (writePoly1 data s).pmw = s.pmw ∧
    (writePoly1 data s).tbm = s.tbm ∧ (writePoly1 data s).tbs = s.tbs ∧ (writePoly1 data s).bestr = s.bestr ∧
    (writePoly1 data s).phase = s.phase ∧ (writePoly1 data s).opr = s.opr ∧ (writePoly1 data s).t = s.t ∧
    (writePoly1 data s).nstep = s.nstep ∧ (writePoly1 data s).done = s.done ∧ (writePoly1 data s).err = s.err ∧
    (writePoly1 data s).ovr = s.ovr ∧ (writePoly1 data s).irqEn = s.irqEn ∧ (writePoly1 data s).lenr = s.lenr ∧
    (writePoly1 data s).poly2r = s.poly2r ∧ (writePoly1 data s).outlenr = s.outlenr ∧ (writePoly1 data s).inBuf = s.inBuf ∧
    (writePoly1 data s).outBuf = s.outBuf ∧ (writePoly1 data s).params = s.params ∧ (writePoly1 data s).rst = s.rst ∧
    (writePoly1 data s).inputs = s.inputs ∧ (writePoly1 data s).resp = s.resp ∧ (writePoly1 data s).era = s.era ∧
    (writePoly1 data s).draws = s.draws :=
  ⟨rfl, rfl, rfl, rfl, rfl, rfl, rfl, rfl, rfl, rfl, rfl, rfl, rfl, rfl, rfl, rfl, rfl, rfl, rfl, rfl, rfl, rfl, rfl, rfl, rfl, rfl, rfl, rfl⟩

@[simp] theorem writePoly2_writes (data : Word) (s : State) :
    (writePoly2 data s).poly2r = data.setWidth 28 :=
  rfl

@[simp] theorem writePoly2_keeps (data : Word) (s : State) :
    (writePoly2 data s).r1 = s.r1 ∧ (writePoly2 data s).r2 = s.r2 ∧ (writePoly2 data s).tap1 = s.tap1 ∧
    (writePoly2 data s).tap2 = s.tap2 ∧ (writePoly2 data s).pmv = s.pmv ∧ (writePoly2 data s).pmw = s.pmw ∧
    (writePoly2 data s).tbm = s.tbm ∧ (writePoly2 data s).tbs = s.tbs ∧ (writePoly2 data s).bestr = s.bestr ∧
    (writePoly2 data s).phase = s.phase ∧ (writePoly2 data s).opr = s.opr ∧ (writePoly2 data s).t = s.t ∧
    (writePoly2 data s).nstep = s.nstep ∧ (writePoly2 data s).done = s.done ∧ (writePoly2 data s).err = s.err ∧
    (writePoly2 data s).ovr = s.ovr ∧ (writePoly2 data s).irqEn = s.irqEn ∧ (writePoly2 data s).lenr = s.lenr ∧
    (writePoly2 data s).poly1r = s.poly1r ∧ (writePoly2 data s).outlenr = s.outlenr ∧ (writePoly2 data s).inBuf = s.inBuf ∧
    (writePoly2 data s).outBuf = s.outBuf ∧ (writePoly2 data s).params = s.params ∧ (writePoly2 data s).rst = s.rst ∧
    (writePoly2 data s).inputs = s.inputs ∧ (writePoly2 data s).resp = s.resp ∧ (writePoly2 data s).era = s.era ∧
    (writePoly2 data s).draws = s.draws :=
  ⟨rfl, rfl, rfl, rfl, rfl, rfl, rfl, rfl, rfl, rfl, rfl, rfl, rfl, rfl, rfl, rfl, rfl, rfl, rfl, rfl, rfl, rfl, rfl, rfl, rfl, rfl, rfl, rfl⟩

@[simp] theorem writeIn_writes (i n : Nat) (data : Word) (s : State) :
    (writeIn i n data s).inBuf = Memory.insertBytes s.inBuf i (leBytes n data) :=
  rfl

@[simp] theorem writeIn_keeps (i n : Nat) (data : Word) (s : State) :
    (writeIn i n data s).r1 = s.r1 ∧ (writeIn i n data s).r2 = s.r2 ∧ (writeIn i n data s).tap1 = s.tap1 ∧
    (writeIn i n data s).tap2 = s.tap2 ∧ (writeIn i n data s).pmv = s.pmv ∧ (writeIn i n data s).pmw = s.pmw ∧
    (writeIn i n data s).tbm = s.tbm ∧ (writeIn i n data s).tbs = s.tbs ∧ (writeIn i n data s).bestr = s.bestr ∧
    (writeIn i n data s).phase = s.phase ∧ (writeIn i n data s).opr = s.opr ∧ (writeIn i n data s).t = s.t ∧
    (writeIn i n data s).nstep = s.nstep ∧ (writeIn i n data s).done = s.done ∧ (writeIn i n data s).err = s.err ∧
    (writeIn i n data s).ovr = s.ovr ∧ (writeIn i n data s).irqEn = s.irqEn ∧ (writeIn i n data s).lenr = s.lenr ∧
    (writeIn i n data s).poly1r = s.poly1r ∧ (writeIn i n data s).poly2r = s.poly2r ∧
    (writeIn i n data s).outlenr = s.outlenr ∧ (writeIn i n data s).outBuf = s.outBuf ∧
    (writeIn i n data s).params = s.params ∧ (writeIn i n data s).rst = s.rst ∧ (writeIn i n data s).inputs = s.inputs ∧
    (writeIn i n data s).resp = s.resp ∧ (writeIn i n data s).era = s.era ∧ (writeIn i n data s).draws = s.draws :=
  ⟨rfl, rfl, rfl, rfl, rfl, rfl, rfl, rfl, rfl, rfl, rfl, rfl, rfl, rfl, rfl, rfl, rfl, rfl, rfl, rfl, rfl, rfl, rfl, rfl, rfl, rfl, rfl, rfl⟩

@[simp] theorem assertReset_writes (s : State) :
    (assertReset s).r1 = false ∧ (assertReset s).r2 = false ∧ (assertReset s).tap1 = ⟨false, false, false⟩ ∧
    (assertReset s).tap2 = ⟨false, false, false⟩ ∧ (assertReset s).pmv = ⟨false, false, false, false⟩ ∧
    (assertReset s).pmw = ⟨0, 0, 0, 0⟩ ∧ (assertReset s).tbm = [] ∧ (assertReset s).tbs = 0 ∧ (assertReset s).bestr = 0 ∧
    (assertReset s).phase = .idle ∧ (assertReset s).opr = .none ∧ (assertReset s).t = 0 ∧ (assertReset s).nstep = 0 ∧
    (assertReset s).done = false ∧ (assertReset s).err = .ok ∧ (assertReset s).ovr = false ∧ (assertReset s).irqEn = false ∧
    (assertReset s).lenr = 0 ∧ (assertReset s).poly1r = 0x3313131 ∧ (assertReset s).poly2r = 0x3313031 ∧
    (assertReset s).outlenr = 0 ∧ (assertReset s).inBuf = [] ∧ (assertReset s).outBuf = [] ∧ (assertReset s).rst = true ∧
    (assertReset s).era = s.era + 1 :=
  ⟨rfl, rfl, rfl, rfl, rfl, rfl, rfl, rfl, rfl, rfl, rfl, rfl, rfl, rfl, rfl, rfl, rfl, rfl, rfl, rfl, rfl, rfl, rfl, rfl, rfl⟩

@[simp] theorem assertReset_keeps (s : State) :
    (assertReset s).params = s.params ∧ (assertReset s).inputs = s.inputs ∧ (assertReset s).resp = s.resp ∧
    (assertReset s).draws = s.draws :=
  ⟨rfl, rfl, rfl, rfl⟩

@[simp] theorem deassertReset_writes (s : State) :
    (deassertReset s).rst = false :=
  rfl

@[simp] theorem deassertReset_keeps (s : State) :
    (deassertReset s).r1 = s.r1 ∧ (deassertReset s).r2 = s.r2 ∧ (deassertReset s).tap1 = s.tap1 ∧
    (deassertReset s).tap2 = s.tap2 ∧ (deassertReset s).pmv = s.pmv ∧ (deassertReset s).pmw = s.pmw ∧
    (deassertReset s).tbm = s.tbm ∧ (deassertReset s).tbs = s.tbs ∧ (deassertReset s).bestr = s.bestr ∧
    (deassertReset s).phase = s.phase ∧ (deassertReset s).opr = s.opr ∧ (deassertReset s).t = s.t ∧
    (deassertReset s).nstep = s.nstep ∧ (deassertReset s).done = s.done ∧ (deassertReset s).err = s.err ∧
    (deassertReset s).ovr = s.ovr ∧ (deassertReset s).irqEn = s.irqEn ∧ (deassertReset s).lenr = s.lenr ∧
    (deassertReset s).poly1r = s.poly1r ∧ (deassertReset s).poly2r = s.poly2r ∧ (deassertReset s).outlenr = s.outlenr ∧
    (deassertReset s).inBuf = s.inBuf ∧ (deassertReset s).outBuf = s.outBuf ∧ (deassertReset s).params = s.params ∧
    (deassertReset s).inputs = s.inputs ∧ (deassertReset s).resp = s.resp ∧ (deassertReset s).era = s.era ∧
    (deassertReset s).draws = s.draws :=
  ⟨rfl, rfl, rfl, rfl, rfl, rfl, rfl, rfl, rfl, rfl, rfl, rfl, rfl, rfl, rfl, rfl, rfl, rfl, rfl, rfl, rfl, rfl, rfl, rfl, rfl, rfl, rfl, rfl⟩

@[simp] theorem State.respond_writes (st : BusStatus) (data : Word) (s : State) :
    (s.respond st data).resp = some ⟨st, data⟩ :=
  rfl

@[simp] theorem State.respond_keeps (st : BusStatus) (data : Word) (s : State) :
    (s.respond st data).r1 = s.r1 ∧ (s.respond st data).r2 = s.r2 ∧ (s.respond st data).tap1 = s.tap1 ∧
    (s.respond st data).tap2 = s.tap2 ∧ (s.respond st data).pmv = s.pmv ∧ (s.respond st data).pmw = s.pmw ∧
    (s.respond st data).tbm = s.tbm ∧ (s.respond st data).tbs = s.tbs ∧ (s.respond st data).bestr = s.bestr ∧
    (s.respond st data).phase = s.phase ∧ (s.respond st data).opr = s.opr ∧ (s.respond st data).t = s.t ∧
    (s.respond st data).nstep = s.nstep ∧ (s.respond st data).done = s.done ∧ (s.respond st data).err = s.err ∧
    (s.respond st data).ovr = s.ovr ∧ (s.respond st data).irqEn = s.irqEn ∧ (s.respond st data).lenr = s.lenr ∧
    (s.respond st data).poly1r = s.poly1r ∧ (s.respond st data).poly2r = s.poly2r ∧ (s.respond st data).outlenr = s.outlenr ∧
    (s.respond st data).inBuf = s.inBuf ∧ (s.respond st data).outBuf = s.outBuf ∧ (s.respond st data).params = s.params ∧
    (s.respond st data).rst = s.rst ∧ (s.respond st data).inputs = s.inputs ∧ (s.respond st data).era = s.era ∧
    (s.respond st data).draws = s.draws :=
  ⟨rfl, rfl, rfl, rfl, rfl, rfl, rfl, rfl, rfl, rfl, rfl, rfl, rfl, rfl, rfl, rfl, rfl, rfl, rfl, rfl, rfl, rfl, rfl, rfl, rfl, rfl, rfl, rfl⟩

@[simp] theorem State.respondFree_writes (n : Nat) (s : State) :
    (s.respondFree n).resp = some ⟨.okay, ofLeBytes (leBytes n (Config.freeRead s.draws))⟩ ∧
    (s.respondFree n).draws = s.draws + 1 :=
  ⟨rfl, rfl⟩

@[simp] theorem State.respondFree_keeps (n : Nat) (s : State) :
    (s.respondFree n).r1 = s.r1 ∧ (s.respondFree n).r2 = s.r2 ∧ (s.respondFree n).tap1 = s.tap1 ∧
    (s.respondFree n).tap2 = s.tap2 ∧ (s.respondFree n).pmv = s.pmv ∧ (s.respondFree n).pmw = s.pmw ∧
    (s.respondFree n).tbm = s.tbm ∧ (s.respondFree n).tbs = s.tbs ∧ (s.respondFree n).bestr = s.bestr ∧
    (s.respondFree n).phase = s.phase ∧ (s.respondFree n).opr = s.opr ∧ (s.respondFree n).t = s.t ∧
    (s.respondFree n).nstep = s.nstep ∧ (s.respondFree n).done = s.done ∧ (s.respondFree n).err = s.err ∧
    (s.respondFree n).ovr = s.ovr ∧ (s.respondFree n).irqEn = s.irqEn ∧ (s.respondFree n).lenr = s.lenr ∧
    (s.respondFree n).poly1r = s.poly1r ∧ (s.respondFree n).poly2r = s.poly2r ∧ (s.respondFree n).outlenr = s.outlenr ∧
    (s.respondFree n).inBuf = s.inBuf ∧ (s.respondFree n).outBuf = s.outBuf ∧ (s.respondFree n).params = s.params ∧
    (s.respondFree n).rst = s.rst ∧ (s.respondFree n).inputs = s.inputs ∧ (s.respondFree n).era = s.era :=
  ⟨rfl, rfl, rfl, rfl, rfl, rfl, rfl, rfl, rfl, rfl, rfl, rfl, rfl, rfl, rfl, rfl, rfl, rfl, rfl, rfl, rfl, rfl, rfl, rfl, rfl, rfl, rfl⟩

@[simp] theorem State.withFetchWord_writes (s : State) (nbits w : Nat) :
    (s.withFetchWord nbits w).rst = false ∧
    (s.withFetchWord nbits w).inputs = .access (cmdWrite s.params (tableWord nbits w)) :: s.inputs :=
  ⟨rfl, rfl⟩

@[simp] theorem State.withFetchWord_keeps (s : State) (nbits w : Nat) :
    (s.withFetchWord nbits w).r1 = s.r1 ∧ (s.withFetchWord nbits w).r2 = s.r2 ∧ (s.withFetchWord nbits w).tap1 = s.tap1 ∧
    (s.withFetchWord nbits w).tap2 = s.tap2 ∧ (s.withFetchWord nbits w).pmv = s.pmv ∧ (s.withFetchWord nbits w).pmw = s.pmw ∧
    (s.withFetchWord nbits w).tbm = s.tbm ∧ (s.withFetchWord nbits w).tbs = s.tbs ∧
    (s.withFetchWord nbits w).bestr = s.bestr ∧ (s.withFetchWord nbits w).phase = s.phase ∧
    (s.withFetchWord nbits w).opr = s.opr ∧ (s.withFetchWord nbits w).t = s.t ∧ (s.withFetchWord nbits w).nstep = s.nstep ∧
    (s.withFetchWord nbits w).done = s.done ∧ (s.withFetchWord nbits w).err = s.err ∧ (s.withFetchWord nbits w).ovr = s.ovr ∧
    (s.withFetchWord nbits w).irqEn = s.irqEn ∧ (s.withFetchWord nbits w).lenr = s.lenr ∧
    (s.withFetchWord nbits w).poly1r = s.poly1r ∧ (s.withFetchWord nbits w).poly2r = s.poly2r ∧
    (s.withFetchWord nbits w).outlenr = s.outlenr ∧ (s.withFetchWord nbits w).inBuf = s.inBuf ∧
    (s.withFetchWord nbits w).outBuf = s.outBuf ∧ (s.withFetchWord nbits w).params = s.params ∧
    (s.withFetchWord nbits w).resp = s.resp ∧ (s.withFetchWord nbits w).era = s.era ∧
    (s.withFetchWord nbits w).draws = s.draws :=
  ⟨rfl, rfl, rfl, rfl, rfl, rfl, rfl, rfl, rfl, rfl, rfl, rfl, rfl, rfl, rfl, rfl, rfl, rfl, rfl, rfl, rfl, rfl, rfl, rfl, rfl, rfl, rfl⟩

end Sys2Proof.Machine
end

