-- ==== Sys2Proof/Laws/Commands.lean ====
section
/-! SUPPORT. What issuing a command can do: dropped with OVR set while BUSY, one named update otherwise. -/

namespace Sys2Proof.Machine

@[simp] theorem busy_eq_false_iff (s : State) : s.busy = false ↔ s.phase = .idle := by
  simp [State.busy]

@[simp] theorem busy_eq_true_iff (s : State) : s.busy = true ↔ s.phase ≠ .idle := by
  simp [State.busy]

theorem issueCommand_busy (f : State → State) (s : State) (h : s.busy = true) :
    issueCommand f s = .next s.withOverrun := by simp [issueCommand, h]

theorem issueCommand_idle (f : State → State) (s : State) (h : s.busy = false) :
    issueCommand f s = .next (f s) := by simp [issueCommand, h]

/-- The update each command makes when it is not dropped (R72, R73, R78, R79). -/
def commandEffect : Instr → State → State
  | .nop => fun s => s
  | .encode => startCommand .encode
  | .decode => startCommand .decode
  | .clear => clearResults
  | .illegal47 _ => completeIllegal
  | .illegal8F _ => completeIllegal

/-- Issuing any command is the issue rule around its update (R69). -/
theorem exec_eq_issueCommand (i : Instr) (s : State) : exec i s = issueCommand (commandEffect i) s := by
  cases i <;> rfl

/-- What a command's issue can answer, in full. -/
theorem exec_cases {i : Instr} {s t : State} (h : exec i s = .next t) :
    (s.busy = true ∧ t = s.withOverrun) ∨ (s.busy = false ∧ t = commandEffect i s) := by
  rw [exec_eq_issueCommand] at h
  cases hb : s.busy
  · rw [issueCommand_idle _ _ hb] at h
    exact .inr ⟨rfl, by simpa using h.symm⟩
  · rw [issueCommand_busy _ _ hb] at h
    exact .inl ⟨rfl, by simpa using h.symm⟩

/-- A command's issue always answers a next state. -/
theorem exec_next (i : Instr) (s : State) : exec i s = .next (if s.busy then s.withOverrun else commandEffect i s) := by
  rw [exec_eq_issueCommand, issueCommand]
  split <;> rfl

end Sys2Proof.Machine
end

