-- ==== Sys2Proof/Laws/Bytes.lean ====
section
/-! SUPPORT. Laws of the byte order (spec/20_memory.md R44). -/

namespace Sys2Proof

@[simp] theorem leBytes_length (n : Nat) (w : Word) : (leBytes n w).length = n := by
  induction n generalizing w with
  | zero => rfl
  | succ n ih => simp [leBytes, ih]

/-- Byte i of a word laid out is its bits 8*i+7 down to 8*i. -/
theorem leBytes_getElem (n : Nat) (w : Word) (i : Nat) (h : i < (leBytes n w).length) :
    (leBytes n w)[i] = w.extractLsb' (8 * i) 8 := by
  induction n generalizing w i with
  | zero => simp at h
  | succ n ih =>
    cases i with
    | zero => simp [leBytes, BitVec.setWidth_eq_extractLsb']
    | succ i =>
      simp only [leBytes, List.getElem_cons_succ, ih]
      ext j hj
      simp
      congr 1
      omega

/-- Four bytes laid out make the word again. -/
@[simp] theorem ofLeBytes_leBytes_four (w : Word) : ofLeBytes (leBytes 4 w) = w := by
  simp only [leBytes, ofLeBytes]
  ext j hj
  simp
  grind

end Sys2Proof
end

