-- ==== Sys2Proof/Laws/Decode.lean ====
section
/-! SUPPORT. Laws of the decoder: it reads the OP field only, every word is some row's, and four bytes on the bus decode as the
word they make (spec/30_encoding.md R58 to R60). -/

namespace Sys2Proof

/-- The OP field as a word is the word with bits 31:4 cleared (R58). -/
theorem opField_setWidth (w : Word) : (opField w).setWidth 32 = w &&& 0xF#32 := by
  apply BitVec.eq_of_toNat_eq
  have h : (0xF#32).toNat = 2 ^ 4 - 1 := rfl
  rw [BitVec.toNat_and, h, Nat.and_two_pow_sub_one_eq_mod]
  simp [opField]
  omega

/-- No row's mask looks above bit 3, so every row accepts a word for its OP field alone (R59, R60). -/
theorem accepts_opField {r : CommandRow} (hr : r ∈ commandMap) (w : Word) :
    r.accepts w = r.accepts ((opField w).setWidth 32) := by
  have hmask : 0xF#32 &&& r.mask = r.mask := by
    revert r
    simp [commandMap]
  rw [opField_setWidth, CommandRow.accepts, CommandRow.accepts, BitVec.and_assoc, hmask]

/-- The decoder reads CMD[3:0] only (R59). -/
theorem decodeWord_opField (w : Word) : decodeWord w = decodeWord ((opField w).setWidth 32) := by
  have hop : opField ((opField w).setWidth 32) = opField w := by
    apply BitVec.eq_of_toNat_eq
    simp [opField]
  unfold decodeWord
  rw [hop, List.find?_congr fun r hr => accepts_opField hr w]

/-- Every word decodes to a command (R59). -/
theorem decodeWord_ok (w : Word) : ∃ i, decodeWord w = .ok i := by
  rw [decodeWord_opField]
  have h : ∀ op : BitVec 4, (match decodeWord (op.setWidth 32) with | .ok _ => true | .error _ => false) = true := by decide
  have := h (opField w)
  split at this
  · exact ⟨_, by assumption⟩
  · cases this

/-- A word laid out in the bus's byte order decodes as the word (R44, R58). -/
@[simp] theorem decode_leBytes (w : Word) : decode (leBytes 4 w) = decodeWord w := by
  have h := ofLeBytes_leBytes_four w
  simp only [leBytes] at h ⊢
  simp only [decode, h]

end Sys2Proof
end

