-- ==== Sys2Proof/Laws/Trellis.lean ====
section
/-! SUPPORT. Laws of trellis states and of one value per trellis state. -/

namespace Sys2Proof.Machine

/-- A statement about every trellis state is four statements. -/
theorem trellis_forall {p : TrellisState → Prop} : (∀ d, p d) ↔ p 0 ∧ p 1 ∧ p 2 ∧ p 3 := by
  refine ⟨fun h => ⟨h 0, h 1, h 2, h 3⟩, fun ⟨h0, h1, h2, h3⟩ d => ?_⟩
  have : d = 0 ∨ d = 1 ∨ d = 2 ∨ d = 3 := by revert d; decide
  rcases this with rfl | rfl | rfl | rfl <;> assumption

@[simp] theorem atState_perState {α : Type} (f : TrellisState → α) (d : TrellisState) : atState (perState f) d = f d := by
  revert d
  exact trellis_forall.2 ⟨rfl, rfl, rfl, rfl⟩

/-- Two records agree when they agree at every state. -/
theorem perState_ext {α : Type} {p q : PerState α} (h : ∀ d, atState p d = atState q d) : p = q := by
  cases p; cases q
  have := trellis_forall.1 h
  simp only [PerState.mk.injEq]
  exact ⟨this.1, this.2.1, this.2.2.1, this.2.2.2⟩

@[simp] theorem perState_atState {α : Type} (p : PerState α) : (perState fun d => atState p d) = p :=
  perState_ext fun d => by simp

@[simp] theorem trellisR1_trellisState (b1 b2 : Bool) : trellisR1 (trellisState b1 b2) = b1 := by
  revert b1 b2; decide

@[simp] theorem trellisR2_trellisState (b1 b2 : Bool) : trellisR2 (trellisState b1 b2) = b2 := by
  revert b1 b2; decide

@[simp] theorem trellisState_bits (s : TrellisState) : trellisState (trellisR1 s) (trellisR2 s) = s := by
  revert s; decide

/-- The state `d` is reached from exactly its two predecessors, on its own `R1` as input (R17). -/
theorem successor_eq_iff (p d : TrellisState) (b : Bool) :
    successor p b = d ↔ b = trellisR1 d ∧ p = predecessor d (trellisR2 p) := by
  revert p d b; decide

theorem branchMetric_le (g1 g2 : Taps) (p : TrellisState) (b r0 r1 : Bool) : branchMetric g1 g2 p b r0 r1 ≤ 2 := by
  unfold branchMetric
  have := Bool.toNat_le (r0 ^^ generatorOutput b p g1)
  have := Bool.toNat_le (r1 ^^ generatorOutput b p g2)
  omega

end Sys2Proof.Machine
end

