-- ==== Sys2Proof/Laws/Sequencer.lean ====
section
/-! SUPPORT. What one sequencer step can do, phase by phase: if it answers a next state, then one of these cases holds. -/

namespace Sys2Proof.Machine

/-- CHECK ends in an error completion, or enters ENC or ACS (R74). -/
theorem checkPhase_cases {s t : State} (h : checkPhase s = .next t) :
    (∃ code, s.opr ≠ .none ∧ checkError s = some code ∧ t = raiseError code s) ∨
    (s.opr = .encode ∧ checkError s = none ∧ t = enterEncode s) ∨
    (s.opr = .decode ∧ checkError s = none ∧ t = enterDecode s) := by
  unfold checkPhase at h
  split at h
  · cases h
  all_goals
    rename_i ho
    split at h
    · rename_i code hc
      cases h
      exact .inl ⟨code, by simp [ho], hc, rfl⟩
    · rename_i hc
      cases h
      simp [ho, hc]

/-- ENC completes at T = NSTEP and takes an encoder step before (R88). -/
theorem encPhase_cases {s t : State} (h : encPhase s = .next t) :
    (s.t = s.nstep ∧ t = completeCommand s) ∨
    (∃ b, s.t < s.nstep ∧ s.t.toNat < s.params.nMax ∧ s.inBit s.t.toNat = some b ∧ t = encoderStep b s) := by
  unfold encPhase at h
  split at h
  · cases h
    exact .inl ⟨by assumption, rfl⟩
  · split at h
    · split at h
      · cases h
      · split at h
        · rename_i b hb
          cases h
          exact .inr ⟨b, by assumption, by omega, hb, rfl⟩
        · cases h
    · cases h

/-- ACS moves to SEL at T = NSTEP and takes an add-compare-select step before (R100). -/
theorem acsPhase_cases {s t : State} (h : acsPhase s = .next t) :
    (s.t = s.nstep ∧ t = enterSelect s) ∨
    (∃ r0 r1, s.t < s.nstep ∧ s.t.toNat < s.params.nMax ∧ s.inBit (2 * s.t.toNat) = some r0 ∧
      s.inBit (2 * s.t.toNat + 1) = some r1 ∧
      (∀ d, metricFits (acsDestination s r0 r1 d).1 = true) ∧ t = acsStep r0 r1 s) := by
  unfold acsPhase at h
  split at h
  · cases h
    exact .inl ⟨by assumption, rfl⟩
  · split at h
    · split at h
      · cases h
      · split at h
        · rename_i r0 r1 h0 h1
          split at h
          · rename_i hf
            cases h
            refine .inr ⟨r0, r1, by assumption, by omega, h0, h1, ?_, rfl⟩
            rw [trellis_forall]
            simpa [trellisStates] using hf
          · cases h
        · cases h
    · cases h

/-- SEL writes the best state to BESTR and TBS and moves to TB (R101). -/
theorem selPhase_cases {s t : State} (h : selPhase s = .next t) :
    ∃ k, bestState (perState s.metric) = some k ∧ t = selectBest k s := by
  unfold selPhase at h
  split at h
  · rename_i k hk
    cases h
    exact ⟨k, hk, rfl⟩
  · cases h

/-- TB completes at T = 0 and takes a traceback step before (R103). -/
theorem tbPhase_cases {s t : State} (h : tbPhase s = .next t) :
    (s.t = 0 ∧ t = completeCommand s) ∨ (s.t ≠ 0 ∧ s.t.toNat ≤ s.params.nMax ∧ t = tracebackStep s) := by
  unfold tbPhase at h
  split at h
  · cases h
    exact .inl ⟨by assumption, rfl⟩
  · split at h
    · cases h
    · cases h
      exact .inr ⟨by assumption, by omega, rfl⟩

/-- The block's turn is the reset event, nothing, or a step of the phase it is in (R70, R126). -/
theorem blockTurn_cases {s t : State} (h : blockTurn s = .next t) :
    (s.rst = true ∧ t = s.resetBlock) ∨
    (s.rst = false ∧
      ((s.phase = .idle ∧ t = s) ∨ (s.phase = .check ∧ checkPhase s = .next t) ∨ (s.phase = .enc ∧ encPhase s = .next t) ∨
       (s.phase = .acs ∧ acsPhase s = .next t) ∨ (s.phase = .sel ∧ selPhase s = .next t) ∨
       (s.phase = .tb ∧ tbPhase s = .next t))) := by
  unfold blockTurn at h
  split at h
  · rename_i hr
    cases h
    exact .inl ⟨hr, rfl⟩
  · rename_i hr
    refine .inr ⟨by simpa using hr, ?_⟩
    unfold sequencerStep at h
    split at h <;> rename_i hp
    · cases h
      exact .inl ⟨hp, rfl⟩
    all_goals simp [hp, h]

end Sys2Proof.Machine
end

