-- ==== Sys2Proof/Laws/Bus.lean ====
section
/-! SUPPORT. What one host access, one host input and one step can do. -/

namespace Sys2Proof.Machine

/-- Every CMD write stands for a command, and issues it (R59, R69). -/
theorem writeCmd_eq (data : Word) (s : State) : ∃ i, decodeWord data = .ok i ∧ writeCmd data s = exec i s := by
  obtain ⟨i, hi⟩ := decodeWord_ok data
  exact ⟨i, hi, by simp [writeCmd, hi]⟩

/-- A dropped or effective write (R49). -/
theorem writeUnlessBusy_cases {f : State → State} {s t : State} (h : writeUnlessBusy f s = .next t) :
    (s.busy = true ∧ t = s.withOverrun) ∨ (s.busy = false ∧ t = f s) := by
  unfold writeUnlessBusy at h
  split at h <;> rename_i hb
  · cases h
    exact .inl ⟨hb, rfl⟩
  · cases h
    exact .inr ⟨by simpa using hb, rfl⟩

/-- What a register write can do, in full (R26 to R37, R48, R49). -/
theorem writeRegister_cases {r : Register} {data : Word} {s t : State} (h : writeRegister r data s = .next t) :
    (r = .cmd ∧ ∃ i, decodeWord data = .ok i ∧ exec i s = .next t) ∨
    (r = .ctrl ∧ t = writeCtrl data s) ∨
    ((r = .len ∨ r = .poly1 ∨ r = .poly2) ∧ s.busy = true ∧ t = s.withOverrun) ∨
    (r = .len ∧ s.busy = false ∧ t = writeLen data s) ∨
    (r = .poly1 ∧ s.busy = false ∧ t = writePoly1 data s) ∨
    (r = .poly2 ∧ s.busy = false ∧ t = writePoly2 data s) ∨
    (r ≠ .cmd ∧ r ≠ .ctrl ∧ r ≠ .len ∧ r ≠ .poly1 ∧ r ≠ .poly2 ∧ t = s) := by
  cases r
  case cmd =>
    obtain ⟨i, hi, he⟩ := writeCmd_eq data s
    exact .inl ⟨rfl, i, hi, he ▸ h⟩
  case ctrl => cases h; exact .inr (.inl ⟨rfl, rfl⟩)
  case len => rcases writeUnlessBusy_cases (f := writeLen data) h with ⟨hb, rfl⟩ | ⟨hb, rfl⟩ <;> simp [hb]
  case poly1 => rcases writeUnlessBusy_cases (f := writePoly1 data) h with ⟨hb, rfl⟩ | ⟨hb, rfl⟩ <;> simp [hb]
  case poly2 => rcases writeUnlessBusy_cases (f := writePoly2 data) h with ⟨hb, rfl⟩ | ⟨hb, rfl⟩ <;> simp [hb]
  all_goals
    cases h
    simp

/-- A read changes the response, and the count of free reads, only (R50). -/
theorem busRead_cases (target : Target) (size : AccessSize) (s : State) :
    (∃ data, busRead target size s = s.respond .okay data) ∨ (∃ n, busRead target size s = s.respondFree n) := by
  unfold busRead
  split
  · split
    · exact .inr ⟨_, rfl⟩
    · exact .inl ⟨_, rfl⟩
  · exact .inl ⟨_, rfl⟩
  · split
    · exact .inr ⟨_, rfl⟩
    · exact .inl ⟨_, rfl⟩

/-- What an access at an offset reaches, in full (R42, R45). -/
theorem offsetTarget_cases {p : Params} {offset : Nat} {size : AccessSize} {target : Target}
    (h : offsetTarget p offset size = some target) :
    (∃ r, target = .register r ∧ size = .word ∧ offset = registerOffset r ∧ offset < 0x40) ∨
    (∃ i, target = .input i ∧ offset = 0x10000 + i ∧ i + sizeBytes size ≤ 2 * p.nMax ∧ offset % sizeBytes size = 0) ∨
    (∃ i, target = .output i ∧ offset = 0x20000 + i ∧ i + sizeBytes size ≤ 2 * p.nMax ∧ offset % sizeBytes size = 0) := by
  unfold offsetTarget at h
  split at h
  · cases h
  split at h
  · split at h
    · rename_i hlt hs
      simp only [registerAt, Option.map_eq_some_iff] at h
      obtain ⟨r, hr, rfl⟩ := h
      have := List.find?_some hr
      simp only [decide_eq_true_eq] at this
      exact .inl ⟨r, rfl, hs, this.symm, hlt⟩
    · cases h
  split at h
  · rename_i hw
    simp only [Option.some.injEq] at h
    simp only [inWindow, Bool.and_eq_true, decide_eq_true_eq] at hw
    obtain ⟨⟨ha, hb⟩, hc⟩ := hw
    exact .inr (.inl ⟨_, h.symm, by unfold inWindowBase at *; omega, by unfold inWindowBase at *; omega, hc⟩)
  split at h
  · rename_i hw
    simp only [Option.some.injEq] at h
    simp only [inWindow, Bool.and_eq_true, decide_eq_true_eq] at hw
    obtain ⟨⟨ha, hb⟩, hc⟩ := hw
    exact .inr (.inr ⟨_, h.symm, by unfold outWindowBase at *; omega, by unfold outWindowBase at *; omega, hc⟩)
  · cases h

/-- What an access reaches, in full (R42, R45). -/
theorem accessTarget_cases {p : Params} {a : Access} {target : Target} (h : accessTarget p a = some target) :
    p.base ≤ a.addr ∧ offsetTarget p (a.addr - p.base) a.size = some target := by
  unfold accessTarget at h
  split at h
  · cases h
  · exact ⟨by omega, h⟩

/-- Every access answers a next state. -/
theorem busAccess_next (a : Access) (s : State) : ∃ t, busAccess a s = .next t := by
  unfold busAccess
  split
  · exact ⟨_, rfl⟩
  split
  · exact ⟨_, rfl⟩
  split
  · exact ⟨_, rfl⟩
  unfold busWrite
  split
  · rename_i r _
    cases r
    case cmd =>
      obtain ⟨i, _, he⟩ := writeCmd_eq (by assumption) (s.respond .okay 0)
      exact ⟨_, he.trans (exec_next i _)⟩
    all_goals first | exact ⟨_, rfl⟩ | (simp only [writeRegister, writeUnlessBusy]; split <;> exact ⟨_, rfl⟩)
  · unfold writeUnlessBusy
    split <;> exact ⟨_, rfl⟩
  · exact ⟨_, rfl⟩

/-- What one access can do, in full (R46 to R49, R128). -/
theorem busAccess_cases {a : Access} {s t : State} (h : busAccess a s = .next t) :
    (s.rst = true ∧ t = s.respond .okay 0) ∨
    (s.rst = false ∧ accessTarget s.params a = none ∧ t = s.respond .error 0) ∨
    (s.rst = false ∧ a.kind = .read ∧ ((∃ data, t = s.respond .okay data) ∨ (∃ n, t = s.respondFree n))) ∨
    (∃ data r, s.rst = false ∧ a.kind = .write data ∧ accessTarget s.params a = some (.register r) ∧
      writeRegister r data (s.respond .okay 0) = .next t) ∨
    (∃ data i, s.rst = false ∧ a.kind = .write data ∧ accessTarget s.params a = some (.input i) ∧
      ((s.busy = true ∧ t = (s.respond .okay 0).withOverrun) ∨
       (s.busy = false ∧ t = writeIn i (sizeBytes a.size) data (s.respond .okay 0)))) ∨
    (∃ data i, s.rst = false ∧ a.kind = .write data ∧ accessTarget s.params a = some (.output i) ∧
      t = s.respond .okay 0) := by
  unfold busAccess at h
  split at h <;> rename_i hr
  · cases h
    exact .inl ⟨hr, rfl⟩
  · have hr : s.rst = false := by simpa using hr
    split at h <;> rename_i ht
    · cases h
      exact .inr (.inl ⟨hr, ht, rfl⟩)
    · split at h <;> rename_i hk
      · cases h
        exact .inr (.inr (.inl ⟨hr, hk, busRead_cases _ _ _⟩))
      · unfold busWrite at h
        split at h
        · exact .inr (.inr (.inr (.inl ⟨_, _, hr, hk, ht, h⟩)))
        · exact .inr (.inr (.inr (.inr (.inl ⟨_, _, hr, hk, ht, writeUnlessBusy_cases h⟩))))
        · cases h
          exact .inr (.inr (.inr (.inr (.inr ⟨_, _, hr, hk, ht, rfl⟩))))

/-- What one step can do (R41, R52, R126). -/
theorem step_cases {s t : State} (h : step s = .next t) :
    (s.inputs = [] ∧ blockTurn s = .next t) ∨
    ∃ i rest, s.inputs = i :: rest ∧
      ((∃ a, i = .access a ∧ busAccess a (s.withInputs rest) = .next t) ∨
       (i = .rst true ∧ t = assertReset (s.withInputs rest)) ∨
       (i = .rst false ∧ t = deassertReset (s.withInputs rest)) ∨
       (i = .advance ∧ blockTurn (s.withInputs rest) = .next t)) := by
  unfold step at h
  split at h <;> rename_i hi
  · exact .inl ⟨hi, h⟩
  · refine .inr ⟨_, _, hi, ?_⟩
    unfold takeInput at h
    split at h
    · exact .inl ⟨_, rfl, h⟩
    · cases h; exact .inr (.inl ⟨rfl, rfl⟩)
    · cases h; exact .inr (.inr (.inl ⟨rfl, rfl⟩))
    · exact .inr (.inr (.inr ⟨rfl, h⟩))

end Sys2Proof.Machine
end

