-- ==== Sys2Proof/Laws/Memory.lean ====
section
/-! SUPPORT. Laws of the written-entries memories: read after write, and every write keeps the canonical form, the size and what
holds of each entry. -/

namespace Sys2Proof.Machine

section Sparse
variable {β : Type}

@[simp] theorem sparseLookup_nil (k : Nat) : sparseLookup ([] : List (Nat × β)) k = none := rfl

/-- A write changes the read of its own key only. -/
theorem sparseLookup_insert (m : List (Nat × β)) (k i : Nat) (v : β) :
    sparseLookup (sparseInsert m k v) i = if i = k then some v else sparseLookup m i := by
  induction m with
  | nil => simp [sparseInsert, sparseLookup]
  | cons c m ih =>
    obtain ⟨a, w⟩ := c
    by_cases h1 : k < a
    · simp [sparseInsert, h1, sparseLookup]
    · by_cases h2 : k = a
      · subst h2
        simp only [sparseInsert, lt_irrefl, if_false, if_true, sparseLookup]
        split <;> rfl
      · simp only [sparseInsert, h1, h2, if_false, sparseLookup, ih]
        by_cases h3 : i = a
        · simp only [h3, if_true]
          rw [if_neg (by omega)]
        · simp [h3]

@[simp] theorem sparseLookup_insert_same (m : List (Nat × β)) (k : Nat) (v : β) :
    sparseLookup (sparseInsert m k v) k = some v := by simp [sparseLookup_insert]

theorem sparseLookup_insert_other (m : List (Nat × β)) {k i : Nat} (v : β) (h : i ≠ k) :
    sparseLookup (sparseInsert m k v) i = sparseLookup m i := by simp [sparseLookup_insert, h]

/-- What holds of every entry holds after a write if it holds of the entry written. -/
theorem sparseInsert_all (p : Nat × β → Bool) (m : List (Nat × β)) (k : Nat) (v : β)
    (hm : m.all p = true) (hv : p (k, v) = true) : (sparseInsert m k v).all p = true := by
  induction m with
  | nil => simp [sparseInsert, hv]
  | cons c m ih =>
    obtain ⟨a, w⟩ := c
    simp only [List.all_cons, Bool.and_eq_true] at hm
    unfold sparseInsert
    split
    · simp [hv, hm.1, hm.2]
    · split
      · simp [hv, hm.2]
      · simp [hm.1, ih hm.2]

theorem sparseInsert_below (n : Nat) (m : List (Nat × β)) (k : Nat) (v : β)
    (hm : sparseBelow n m = true) (hk : k < n) : sparseBelow n (sparseInsert m k v) = true :=
  sparseInsert_all _ m k v hm (by simpa using hk)

/-- A write keeps the keys strictly rising. -/
theorem sparseInsert_rising (m : List (Nat × β)) (k : Nat) (v : β) (hm : sparseRising m = true) :
    sparseRising (sparseInsert m k v) = true := by
  induction m with
  | nil => rfl
  | cons c m ih =>
    obtain ⟨a, w⟩ := c
    by_cases h1 : k < a
    · simp [sparseInsert, h1, sparseRising, hm]
    · by_cases h2 : k = a
      · subst h2
        cases m with
        | nil => simp [sparseInsert, sparseRising]
        | cons d m => simpa [sparseInsert, sparseRising] using hm
      · have hak : a < k := by omega
        cases m with
        | nil => simp [sparseInsert, h1, h2, sparseRising, hak]
        | cons d m =>
          obtain ⟨b, u⟩ := d
          simp only [sparseRising, Bool.and_eq_true, decide_eq_true_eq] at hm
          have := ih hm.2
          simp only [sparseInsert, h1, h2, if_false] at this ⊢
          by_cases h3 : k < b
          · simpa [h3, sparseRising, hak] using hm.2
          · by_cases h4 : k = b
            · subst h4
              simpa [h3, sparseRising, hm.1] using this
            · simpa [h3, h4, sparseRising, hm.1] using this

end Sparse

@[simp] theorem Memory.lookup_nil (i : Nat) : Memory.lookup [] i = none := rfl

/-- A buffer's read is the entry listed, if any. -/
theorem Memory.lookup_eq (m : Memory) (i : Nat) : Memory.lookup m i = sparseLookup m i := by
  unfold Memory.lookup Memory.unlisted
  cases sparseLookup m i <;> rfl

theorem Memory.lookup_insert (m : Memory) (k i : Nat) (v : Byte) :
    Memory.lookup (Memory.insert m k v) i = if i = k then some v else Memory.lookup m i := by
  simp [Memory.lookup_eq, Memory.insert, sparseLookup_insert]

@[simp] theorem Memory.lookup_insert_same (m : Memory) (k : Nat) (v : Byte) :
    Memory.lookup (Memory.insert m k v) k = some v := by simp [Memory.lookup_insert]

theorem Memory.insert_wf (m : Memory) (k : Nat) (v : Byte) (h : Memory.wf m = true) :
    Memory.wf (Memory.insert m k v) = true := sparseInsert_rising m k v h

/-- Reading one byte after writing several: the byte written there, or what was there. -/
theorem Memory.lookup_insertBytes (vs : List Byte) (m : Memory) (i a : Nat) :
    Memory.lookup (Memory.insertBytes m i vs) a =
      if h : i ≤ a ∧ a < i + vs.length then some (vs[a - i]'(by omega)) else Memory.lookup m a := by
  induction vs generalizing m i with
  | nil => simp [Memory.insertBytes]
  | cons v vs ih =>
    simp only [Memory.insertBytes, ih, Memory.lookup_insert, List.length_cons]
    by_cases h1 : a = i
    · subst h1; simp
    · by_cases h2 : i + 1 ≤ a ∧ a < i + 1 + vs.length
      · have h3 : i ≤ a ∧ a < i + (vs.length + 1) := by omega
        have h4 : a - i = a - (i + 1) + 1 := by omega
        simp [h2, h3, h4]
      · have h3 : ¬ (i ≤ a ∧ a < i + (vs.length + 1)) := by omega
        rw [dif_neg h2, dif_neg h3, if_neg h1]

theorem Memory.insertBytes_wf (vs : List Byte) (m : Memory) (i : Nat) (h : Memory.wf m = true) :
    Memory.wf (Memory.insertBytes m i vs) = true := by
  induction vs generalizing m i with
  | nil => exact h
  | cons v vs ih => exact ih _ _ (Memory.insert_wf m i v h)

theorem Memory.insertBytes_below (n : Nat) (vs : List Byte) (m : Memory) (i : Nat) (h : sparseBelow n m = true)
    (hi : i + vs.length ≤ n) : sparseBelow n (Memory.insertBytes m i vs) = true := by
  induction vs generalizing m i with
  | nil => exact h
  | cons v vs ih =>
    simp only [List.length_cons] at hi
    exact ih _ _ (sparseInsert_below n m i v h (by omega)) (by omega)

theorem Memory.insert_all (p : Host.Cell → Bool) (m : Memory) (k : Nat) (v : Byte) (hm : m.all p = true)
    (hv : p (k, v) = true) : (Memory.insert m k v).all p = true := sparseInsert_all p m k v hm hv

/-! ### The block's buffers after a write -/

@[simp] theorem State.inByte_writeOut (s : State) (i a : Nat) (v : Byte) : (s.writeOut i v).inByte a = s.inByte a := rfl

theorem State.outByte_writeOut (s : State) (i a : Nat) (v : Byte) :
    (s.writeOut i v).outByte a = if a = i then v else s.outByte a := by
  simp only [State.outByte, State.writeOut, Memory.lookup_insert]
  split <;> rfl

@[simp] theorem State.tbmWord_writeOut (s : State) (i a : Nat) (v : Byte) : (s.writeOut i v).tbmWord a = s.tbmWord a := rfl

theorem State.tbmWord_writeTbm (s : State) (i a : Nat) (w : PerState Bool) :
    (s.writeTbm i w).tbmWord a = if a = i then w else s.tbmWord a := by
  simp only [State.tbmWord, State.writeTbm, sparseLookup_insert]
  split <;> rfl

end Sys2Proof.Machine
end

