-- ==== Sys2Proof/Laws/Operands.lean ====
section
/-! SUPPORT. Laws of symbols and of the frame in IN (spec/30_encoding.md R62, spec/40_commands.md R75). -/

namespace Sys2Proof.Machine

@[simp] theorem symbolBit_symbolOf (b : Bool) : symbolBit (symbolOf b) = some b := by cases b <;> decide

@[simp] theorem isBinarySymbol_symbolOf (b : Bool) : isBinarySymbol (symbolOf b) = true := by cases b <;> decide

/-- A byte is a binary symbol exactly when `bit` is defined for it. -/
theorem isBinarySymbol_iff (c : Byte) : isBinarySymbol c = true ↔ ∃ b, c = symbolOf b := by
  simp only [isBinarySymbol, Bool.or_eq_true, decide_eq_true_eq]
  constructor
  · rintro (rfl | rfl)
    · exact ⟨false, rfl⟩
    · exact ⟨true, rfl⟩
  · rintro ⟨b, rfl⟩
    cases b
    · exact .inl rfl
    · exact .inr rfl

/-- IN's bytes depend on the buffer and the era only. -/
theorem State.inByte_congr {s t : State} (hb : t.inBuf = s.inBuf) (he : t.era = s.era) (i : Nat) : t.inByte i = s.inByte i := by
  simp [State.inByte, hb, he]

theorem State.frameBinary_congr {s t : State} (hb : t.inBuf = s.inBuf) (he : t.era = s.era) (n : Nat) :
    t.frameBinary n = s.frameBinary n := by
  induction n with
  | zero => rfl
  | succ n ih => simp [State.frameBinary, ih, State.inByte_congr hb he]

/-- A frame is binary exactly when each of its bytes is a binary symbol (R75). -/
theorem State.frameBinary_iff (s : State) (n : Nat) : s.frameBinary n = true ↔ ∀ i < n, isBinarySymbol (s.inByte i) = true := by
  induction n with
  | zero => simp [State.frameBinary]
  | succ n ih =>
    simp only [State.frameBinary, Bool.and_eq_true, ih]
    constructor
    · rintro ⟨h1, h2⟩ i hi
      rcases Nat.lt_succ_iff_lt_or_eq.1 hi with h | rfl
      · exact h2 i h
      · exact h1
    · exact fun h => ⟨h n (by omega), fun i hi => h i (by omega)⟩

/-- Every bit of a binary frame is defined. -/
theorem State.inBit_of_frameBinary {s : State} {n i : Nat} (h : s.frameBinary n = true) (hi : i < n) :
    ∃ b, s.inBit i = some b := by
  obtain ⟨b, hb⟩ := (isBinarySymbol_iff _).1 ((s.frameBinary_iff n).1 h i hi)
  exact ⟨b, by simp [State.inBit, hb]⟩

@[simp] theorem State.frameBits_length (s : State) (n : Nat) : (s.frameBits n).length = n := by
  induction n with
  | zero => rfl
  | succ n ih => simp [State.frameBits, ih]

end Sys2Proof.Machine
end

