-- ==== Sys2Proof/Laws/PerInstr.lean ====
section
/-! SUPPORT. Statements made of each command as syntax: `OpField` says that a well-formed command's word is accepted by its own row
of the command map, which makes the command again (spec/30_encoding.md R59). -/

namespace Sys2Proof.Laws.OpField

/-- The mnemonic of a command's row in spec/opcode_table.json. -/
def rowName : Instr → String
  | .nop => "NOP"
  | .encode => "ENCODE"
  | .decode => "DECODE"
  | .clear => "CLEAR"
  | .illegal47 _ => "ILLEGAL_4_7"
  | .illegal8F _ => "ILLEGAL_8_F"

/-- The row named after a well-formed command accepts its word and makes it again. -/
def Statement (i : Instr) : Prop :=
  i.wellFormed = true → ∃ r ∈ commandMap, r.mnemonic = rowName i ∧ r.accepts (encode i) = true ∧ r.make (opField (encode i)) = i

theorem nop : Statement .nop := fun _ => ⟨_, .head _, rfl, by decide, rfl⟩

theorem encode : Statement .encode := fun _ => ⟨_, .tail _ (.head _), rfl, by decide, rfl⟩

theorem decode : Statement .decode := fun _ => ⟨_, .tail _ (.tail _ (.head _)), rfl, by decide, rfl⟩

theorem clear : Statement .clear := fun _ => ⟨_, .tail _ (.tail _ (.tail _ (.head _))), rfl, by decide, rfl⟩

/-- The word of a command holds its OP in CMD[3:0]. -/
theorem opField_encode (i : Instr) : opField (Sys2Proof.encode i) = i.op := by
  have h : ∀ op : BitVec 4, opField ((0 : BitVec 28) ++ op) = op := by decide
  exact h i.op

theorem illegal47 (op : BitVec 4) : Statement (.illegal47 op) := by
  intro h
  refine ⟨_, .tail _ (.tail _ (.tail _ (.tail _ (.head _)))), rfl, ?_, congrArg Instr.illegal47 (opField_encode _)⟩
  revert op
  decide

theorem illegal8F (op : BitVec 4) : Statement (.illegal8F op) := by
  intro h
  refine ⟨_, .tail _ (.tail _ (.tail _ (.tail _ (.tail _ (.head _))))), rfl, ?_, congrArg Instr.illegal8F (opField_encode _)⟩
  revert op
  decide

end Sys2Proof.Laws.OpField
end

