-- ==== Sys2Proof/Laws/Safety.lean ====
section
/-! SUPPORT. Laws of the invariant's parts: they depend on the fields they speak of only, CHECK passes exactly when its conditions
hold, and the add-compare-select step keeps the metrics' pattern and bound. -/

namespace Sys2Proof.Machine

@[simp] theorem runSteps_zero (s : State) : runSteps 0 s = .next s := rfl

/-- A step that answers a next state, in front. -/
theorem runSteps_succ {s t : State} (k : Nat) (h : step s = .next t) : runSteps (k + 1) s = runSteps k t := by
  simp [runSteps, h]

/-- The host interface's run of any machine, one step in front. -/
theorem coreRun_succ (M : Host.Core) (k : Nat) (s : M.State) :
    (∀ t, M.step s = .next t → M.run (k + 1) s = M.run k t) ∧ (∀ r, M.step s = .fault r → M.run (k + 1) s = .fault r) ∧
    (∀ r, M.step s = .refused r → M.run (k + 1) s = .refused r) := by
  refine ⟨?_, ?_, ?_⟩ <;> intro t h <;> simp [Host.Core.run, h]

/-- `runSteps` is the host interface's run of the machine. -/
theorem runSteps_eq_coreRun (k : Nat) (s : State) : runSteps k s = Host.Core.run Sys2Proof.core k s := by
  induction k generalizing s with
  | zero => rfl
  | succ k ih =>
    have hc := coreRun_succ Sys2Proof.core k s
    cases h : step s with
    | next t => exact (runSteps_succ k h).trans ((ih t).trans (hc.1 t h).symm)
    | fault r => exact (show runSteps (k + 1) s = .fault r by simp [runSteps, h]).trans (hc.2.1 r h).symm
    | refused r => exact (show runSteps (k + 1) s = .refused r by simp [runSteps, h]).trans (hc.2.2 r h).symm

theorem memoriesSound_congr {s t : State} (h : MemoriesSound s) (hp : t.params = s.params) (hi : t.inBuf = s.inBuf)
    (ho : t.outBuf = s.outBuf) (hm : t.tbm = s.tbm) : MemoriesSound t := by
  obtain ⟨a, b, c, d, e, f, g⟩ := h
  constructor <;> simp only [hp, hi, ho, hm] <;> assumption

theorem frameAccepted_congr {s t : State} (h : FrameAccepted s) (hb : t.inBuf = s.inBuf) (he : t.era = s.era)
    (h1 : t.poly1r = s.poly1r) (h2 : t.poly2r = s.poly2r) (h3 : t.tap1 = s.tap1) (h4 : t.tap2 = s.tap2) (hl : t.lenr = s.lenr)
    (hn : t.nstep = s.nstep) (hp : t.params = s.params) : FrameAccepted t := by
  obtain ⟨a, b, c, d, e, f⟩ := h
  constructor <;> simp only [h1, h2, h3, h4, hl, hn, hp, State.frameBinary_congr hb he] <;> assumption

theorem metricsAfter_congr {s t : State} {n : Nat} (h : MetricsAfter n s) (hv : t.pmv = s.pmv) (hw : t.pmw = s.pmw) :
    MetricsAfter n t := ⟨hv ▸ h.1, hw ▸ h.2⟩

/-- A destination is finite after a step exactly when one of its sources was before (R98). -/
theorem finiteAfter_succ (n : Nat) (d : TrellisState) :
    finiteAfter (n + 1) d = (finiteAfter n (predecessor d false) || finiteAfter n (predecessor d true)) := by
  match n with
  | 0 => revert d; decide
  | 1 => revert d; decide
  | n + 2 => rfl

/-- The add-compare-select step moves the finite pattern and the bound on by one step (R98, R99). -/
theorem acsDestination_after {s : State} {n : Nat} (hm : MetricsAfter n s) (r0 r1 : Bool) (d : TrellisState) :
    (acsDestination s r0 r1 d).1.isSome = finiteAfter (n + 1) d ∧ (acsDestination s r0 r1 d).1.getD 0 ≤ 2 * (n + 1) := by
  have hc : ∀ r, (acsCandidate s r0 r1 d r).isSome = finiteAfter n (predecessor d r) ∧
      (acsCandidate s r0 r1 d r).getD 0 ≤ 2 * (n + 1) := by
    intro r
    unfold acsCandidate State.metric
    rw [hm.finite]
    have := hm.bounded (predecessor d r)
    have := branchMetric_le s.tap1 s.tap2 (predecessor d r) (trellisR1 d) r0 r1
    split
    · simp_all
      omega
    · simp_all
  rw [finiteAfter_succ, ← (hc false).1, ← (hc true).1]
  have h0 := (hc false).2
  have h1 := (hc true).2
  unfold acsDestination
  revert h0 h1
  cases acsCandidate s r0 r1 d false <;> cases acsCandidate s r0 r1 d true <;> intro h0 h1 <;> simp [acsSelect] at *
  · assumption
  · assumption
  · split <;> simp <;> omega

/-- CHECK raises no error exactly when its conditions hold (R74, R75). -/
theorem checkError_eq_none_iff {s : State} (ho : s.opr ≠ .none) : checkError s = none ↔ s.passesCheck := by
  have hodd : s.lenr.getLsbD 0 = decide (s.lenr.toNat % 2 = 1) := by
    simp [BitVec.getLsbD, Nat.testBit_zero]
  have hbin : s.frameBinary s.lenr.toNat = true ↔ ∀ i < s.lenr.toNat, s.inByte i = 0x30 ∨ s.inByte i = 0x31 := by
    simp [State.frameBinary_iff, isBinarySymbol]
  unfold checkError State.passesCheck State.lengthFits State.polynomialsValid State.frameValid
  rw [← hbin, hodd]
  cases hop : s.opr
  · exact absurd hop ho
  all_goals
    by_cases h1 : polyValid s.poly1r = true <;> by_cases h2 : polyValid s.poly2r = true <;>
      by_cases h3 : s.frameBinary s.lenr.toNat = true <;> simp [h1, h2, h3]
    all_goals
      try split
      all_goals simp_all

end Sys2Proof.Machine
end

