-- ==== Sys2Proof/Tests/Slice0.lean ====
section
/-! SUPPORT. Small tests, each expected value taken from spec/95_test_vectors.md or worked by hand from the rule named, and for
each statement with hypotheses a concrete state that meets them. -/

namespace Sys2Proof.Tests

open Sys2Proof.Machine

/-! ### Helpers -/

/-- The state a step answers, if it answers one. -/
def answered (o : Host.Outcome State Fault Refusal) : Option State :=
  match o with
  | .next t => some t
  | .fault _ => none
  | .refused _ => none

/-- After reset, with these bytes in IN and LEN set to their number. -/
def loaded (cs : List Byte) : State :=
  { State.reset with lenr := BitVec.ofNat 17 cs.length, inBuf := cs.zipIdx.map fun c => (c.2, c.1) }

/-- The same with a command just started. -/
def started (op : Operation) (cs : List Byte) : State := startCommand op (loaded cs)

/-- The state whose next step is this access. -/
def withAccess (s : State) (addr : Nat) (size : AccessSize) (kind : AccessKind) : State :=
  { s with inputs := [.access { addr := addr, size := size, kind := kind }] }

/-- The response one access gets. -/
def responseTo (s : State) (addr : Nat) (size : AccessSize) (kind : AccessKind) : Option BusResponse :=
  (answered (step (withAccess s addr size kind))).bind fun t => t.resp

/-- STATUS after a CMD write. -/
def statusAfter (s : State) (v : Word) : Option Word :=
  (answered (step (withAccess s 0 .word (.write v)))).map fun t => t.statusWord

/-- Path metrics from numbers; 4^9 stands for INF. -/
def metrics (s : State) (m0 m1 m2 m3 : Nat) : State :=
  { s with
    pmv := ⟨decide (m0 < 4 ^ 9), decide (m1 < 4 ^ 9), decide (m2 < 4 ^ 9), decide (m3 < 4 ^ 9)⟩
    pmw := ⟨BitVec.ofNat 17 (m0 % 4 ^ 9), BitVec.ofNat 17 (m1 % 4 ^ 9), BitVec.ofNat 17 (m2 % 4 ^ 9), BitVec.ofNat 17 (m3 % 4 ^ 9)⟩ }

/-- The default taps, "111" and "101". -/
def defaultTaps (s : State) : State := { s with tap1 := ⟨true, true, true⟩, tap2 := ⟨true, false, true⟩ }

/-! ### Well-formedness: each check refuses an ill-formed command -/

theorem test_illegal47_below_refused : (Instr.illegal47 3).wellFormed = false := by decide

theorem test_illegal47_above_refused : (Instr.illegal47 8).wellFormed = false := by decide

theorem test_illegal8F_below_refused : (Instr.illegal8F 7).wellFormed = false := by decide

/-! ### Decoding: words written out from R59 -/

theorem test_decode_nop : decodeWord 0x00000000 = .ok .nop := by decide

theorem test_decode_encode_high_bits : decodeWord 0xFFFFFFF1 = .ok .encode := by decide

theorem test_decode_decode : decodeWord 0x00000002 = .ok .decode := by decide

theorem test_decode_clear : decodeWord 0x12345673 = .ok .clear := by decide

theorem test_decode_illegal47 : decodeWord 0x00000005 = .ok (.illegal47 5) := by decide

theorem test_decode_illegal8F : decodeWord 0x0000000C = .ok (.illegal8F 12) := by decide

theorem test_decode_five_bytes : decode [1, 0, 0, 0, 0] = .error .trailing := by decide

theorem test_table_words :
    [0, 1, 2, 3, 4, 8].map (decodeTableWord 32) =
      [some .nop, some .encode, some .decode, some .clear, some (.illegal47 4), some (.illegal8F 8)] := by decide

/-- Every row's pattern runs as the first command after reset. -/
theorem test_first_command_runs :
    ([0, 1, 2, 3, 4, 8].map fun w => (answered (step (State.reset.withFetchWord 32 w))).map fun t => t.statusWord) =
      [some 0, some 1, some 1, some 0, some 0x32, some 0x32] := by decide

/-! ### Commands and STATUS (V-CMD) -/

/-- V-CMD-1. -/
theorem test_nop_keeps_status : statusAfter { State.reset with done := true } 0 = some 0x002 := by decide

/-- V-CMD-2. -/
theorem test_clear_status :
    statusAfter { State.reset with done := true, err := .invalidInput, ovr := true, outlenr := 4, r1 := true } 3 = some 0 := by
  decide

/-- V-CMD-4, V-CMD-5. -/
theorem test_illegal_status : [4, 7, 15].map (statusAfter State.reset) = [some 0x32, some 0x32, some 0x32] := by decide

/-- V-CMD-9: OVR stays through a start. -/
theorem test_decode_keeps_ovr : statusAfter { State.reset with done := true, ovr := true } 2 = some 0x101 := by decide

/-- V-BUSY-3. -/
theorem test_busy_clear_dropped : statusAfter (started .encode []) 3 = some 0x101 := by decide

/-! ### CHECK (V-CHK) -/

/-- STATUS after the CHECK step. -/
def checkStatus (s : State) : Option Word := (answered (blockTurn s)).map fun t => t.statusWord

/-- V-CHK-1, V-CHK-3, V-CHK-14. -/
theorem test_check_length :
    [{ started .encode [] with lenr := 65 }, { started .decode [] with lenr := 129 }, { started .encode [] with lenr := 0x1FFFF }].map
      checkStatus = [some 0x42, some 0x42, some 0x42] := by decide

/-- V-CHK-5 and V-CHK-6: the length first, the polynomial before the odd length. -/
theorem test_check_priority :
    [{ started .encode [] with lenr := 65, poly1r := 0x2003131 }, { started .decode [] with lenr := 5, poly1r := 0x2003131 }].map
      checkStatus = [some 0x42, some 0x12] := by decide

/-- V-CHK-8, V-CHK-9, V-CHK-10, V-SRC-3. -/
theorem test_check_input :
    [started .decode [0x31, 0x30, 0x31, 0x30, 0x31], started .decode [0x31, 0x61, 0x30, 0x31], started .encode [0x31, 0x01],
     started .encode [0x31, 0x30, 0x61, 0x30, 0x31]].map checkStatus = [some 0x22, some 0x22, some 0x22, some 0x22] := by decide

/-- V-POLY-4 to V-POLY-8, V-POLY-10. -/
theorem test_poly_validity :
    [0x2003131, 0x4313131, 0x0313131, 0x3013131, 0x3316131, 0x3313130, 0x3303030].map polyValid =
      [false, false, false, false, false, true, true] := by decide

/-- V-POLY-11: "110" has its first character in SYM0. -/
theorem test_poly_taps : polyTaps 0x3303131 = ⟨true, true, false⟩ ∧ polyWord true true false = 0x03303131 := by decide

/-! ### Encoder -/

/-- V-XOR-1, V-XOR-2. -/
theorem test_generator :
    generatorOutput true 2 ⟨true, true, true⟩ = false ∧ generatorOutput false 3 ⟨true, false, true⟩ = true := by decide

/-- R87's example: T = 1, IN[1] = '1', state 10: OUT[2..3] = "01" and state 11. -/
theorem test_encoder_step :
    (answered (encPhase { defaultTaps (started .encode [0x31, 0x31]) with phase := .enc, t := 1, nstep := 2, r1 := true })).map
      (fun t => (t.outBuf, t.encState, t.t)) = some ([(2, 0x30), (3, 0x31)], 3, 2) := by decide

/-- V-ENC-1, V-ENC-14 as functions. -/
theorem test_encode_function :
    encodeBits [true, true, false, true, true] ⟨true, true, true⟩ ⟨true, false, true⟩ =
      ([true, true, false, true, false, true, false, false, false, true], 3) ∧
    encodeBits [true, false, true, true] ⟨true, true, false⟩ ⟨false, true, true⟩ =
      ([true, false, true, true, true, true, false, true], 3) := by decide

/-! ### Decoder -/

/-- V-BMU-1, V-BMU-2, V-BMU-4. -/
theorem test_branch_metric :
    branchMetric ⟨true, true, true⟩ ⟨true, false, true⟩ 1 false false true = 1 ∧
    branchMetric ⟨true, true, true⟩ ⟨true, false, true⟩ 0 false true true = 2 ∧
    branchMetric ⟨true, true, true⟩ ⟨true, false, true⟩ 2 false false true = 2 := by decide

/-- The metrics and decision word one ACS step leaves for a received pair. -/
def acsResult (s : State) (r0 r1 : Bool) : List (Option Nat) × Option (PerState Bool) :=
  (trellisStates.map (acsStep r0 r1 s).metric, sparseLookup (acsStep r0 r1 s).tbm s.t.toNat)

/-- V-ACS-1: both sources INF. -/
theorem test_acs_infinite :
    acsResult (metrics (defaultTaps State.reset) 0 (4 ^ 9) (4 ^ 9) (4 ^ 9)) true true =
      ([some 2, none, some 0, none], some ⟨false, false, false, false⟩) := by decide

/-- V-ACS-3: a tie takes the source with `R2 = 0`. -/
theorem test_acs_tie :
    acsResult (metrics (defaultTaps State.reset) 3 1 2 1) false false =
      ([some 3, some 2, some 1, some 2], some ⟨false, true, true, true⟩) := by decide

/-- V-SEL-2, V-SEL-5, V-SEL-6. -/
theorem test_final_selection :
    [metrics State.reset 3 2 3 2, metrics State.reset 0 (4 ^ 9) 0 (4 ^ 9), metrics State.reset 2 1 3 1].map
      (fun s => bestState (perState s.metric)) = [some 1, some 0, some 1] := by decide

/-- V-TB-1 at T = 4: TBS 2 and decision word 1111 write '1' to OUT[3] and go to state 1. -/
theorem test_traceback_step :
    (let u := tracebackStep { State.reset with t := 4, tbs := 2, tbm := [(3, ⟨true, true, true, true⟩)] }
     (u.outBuf, u.tbs, u.t)) = ([(3, 0x31)], 1, 3) := by decide

/-- V-DEC-8: the corruption scenario of the source. -/
theorem test_decode_function :
    decodeBits [false, true, true, true, false, true, false, false, false, true] ⟨true, true, true⟩ ⟨true, false, true⟩ =
      { bits := [false, true, true, true, false], best := 1, pmv := ⟨true, true, true, true⟩, pmw := ⟨3, 2, 3, 2⟩ } := by decide

/-- V-SRC-11, fourth row. -/
theorem test_inject_errors :
    injectErrors [true, true, false, true, false, true, false, false, false, true] [9, 3, 3, 12] =
      [true, true, false, true, false, true, false, false, false, false] := by decide

/-! ### The bus (V-BUS, V-BUSY) -/

/-- V-BUS-1. -/
theorem test_bus_write_word :
    (answered (step (withAccess State.reset 0x10000 .word (.write 0x31303131)))).map (fun t => t.inBuf) =
      some [(0, 0x31), (1, 0x31), (2, 0x30), (3, 0x31)] := by decide

/-- V-BUS-3, V-BUS-4. -/
theorem test_bus_read_back :
    responseTo (loaded [0x31, 0x31, 0x30, 0x31]) 0x10000 .word .read = some ⟨.okay, 0x31303131⟩ ∧
    responseTo (loaded [0x31, 0x31, 0x30, 0x31]) 0x10002 .byte .read = some ⟨.okay, 0x30⟩ := by decide

/-- V-BUS-5, V-BUS-6, V-BUS-8, V-BUS-10, V-BUS-11, V-BUS-12, V-BUS-19. -/
theorem test_bus_errors :
    [responseTo State.reset 0x10002 .word .read, responseTo State.reset 0x10001 .half (.write 0x3131),
     responseTo State.reset 0x10080 .byte .read, responseTo State.reset 0x00004 .half .read,
     responseTo State.reset 0x00006 .word .read, responseTo State.reset 0x00040 .word .read,
     responseTo State.reset 0x30000 .word .read] = List.replicate 7 (some ⟨.error, 0⟩) := by decide

/-- V-BUS-13, V-BUS-16, and the reset values of POLY1 and POLY2. -/
theorem test_bus_registers :
    [0x34, 0x38, 0x3C, 0x10, 0x14].map (fun a => responseTo State.reset a .word .read) =
      [some ⟨.okay, 0x40⟩, some ⟨.okay, 0⟩, some ⟨.okay, 0⟩, some ⟨.okay, 0x03313131⟩, some ⟨.okay, 0x03313031⟩] := by decide

/-- V-BUS-17, V-BUS-18, V-POLY-9: writable fields only. -/
theorem test_bus_write_registers :
    [(0x0C, Register.len, 0xFFFFFFFF#32), (0x08, .ctrl, 0xFFFFFFFF#32), (0x10, .poly1, 0xF3313131#32)].map
      (fun x => (answered (step (withAccess State.reset x.1 .word (.write x.2.2)))).map fun t => t.registerWord x.2.1) =
      [some 0x1FFFF, some 1, some 0x03313131] := by decide

/-- V-BUSY-1, V-BUSY-4, V-BUSY-6: LEN dropped with OVR, CTRL taken, STATUS ignored. -/
theorem test_busy_writes :
    [(0x0C, 0), (0x08, 1), (0x04, 0)].map
      (fun x => (answered (step (withAccess (started .encode [0x31]) x.1 .word (.write x.2)))).map
        fun t => (t.lenr, t.irqEn, t.statusWord)) =
      [some (1, false, 0x101), some (1, true, 0x001), some (1, false, 0x001)] := by decide

/-- The first and last byte of each window at an address map with N_MAX = 64 (V-BUS-7, V-BUS-9, R42). -/
theorem test_window_bounds :
    offsetTarget Params.reference 0x1007F .byte = some (.input 127) ∧
    offsetTarget Params.reference 0x1007C .word = some (.input 124) ∧
    offsetTarget Params.reference 0x2007E .half = some (.output 126) ∧
    offsetTarget Params.reference 0x20080 .byte = none := by decide

/-! ### Reset and interrupt -/

/-- V-RST-2: reset in the middle of a command. -/
theorem test_reset_aborts :
    (answered (step { started .decode [0x31, 0x31] with inputs := [.rst true], irqEn := true })).map
      (fun t => (t.statusWord, t.irq, t.phase)) = some (0, false, .idle) := by decide

/-- V-IRQ-2, V-IRQ-3. -/
theorem test_irq :
    (answered (step (withAccess { State.reset with done := true } 0x08 .word (.write 1)))).map (fun t => t.irq) = some true ∧
    (answered (step (withAccess { State.reset with irqEn := true } 0 .word (.write 7)))).map (fun t => t.irq) = some true := by
  decide

/-! ### Witnesses: states that meet the hypotheses of each statement -/

/-- The invariant of a state from its parts, for a state with reset not asserted. -/
theorem inv_of_parts {s : State} (hp : s.params.ok = true)
    (hm : Memory.wf s.inBuf = true ∧ sparseBelow (2 * s.params.nMax) s.inBuf = true ∧ Memory.wf s.outBuf = true ∧
      sparseBelow (2 * s.params.nMax) s.outBuf = true ∧ (s.outBuf.all fun c => isBinarySymbol c.2) = true ∧
      sparseRising s.tbm = true ∧ sparseBelow s.params.nMax s.tbm = true)
    (hz : ∀ k, atState s.pmv k = false → atState s.pmw k = 0) (ho : s.outlenr.toNat ≤ 2 * s.params.nMax)
    (hb : s.busy = true → s.done = false ∧ s.err = .ok) (hph : PhaseSound s) (hr : s.rst = false) : s.Inv where
  params := hp
  memories := ⟨hm.1, hm.2.1, hm.2.2.1, hm.2.2.2.1, hm.2.2.2.2.1, hm.2.2.2.2.2.1, hm.2.2.2.2.2.2⟩
  infZero := hz
  outlenFits := ho
  busyFlags := hb
  phase := hph
  heldInReset := fun h => by rw [hr] at h; cases h

/-- "1" in IN and idle. -/
def idleState : State := loaded [0x31]

/-- ENCODE of "1" about to take its first step, with OUT[0..1] written before as "00". -/
def encState : State := { enterEncode (started .encode [0x31]) with outBuf := [(0, 0x30), (1, 0x30)] }

/-- DECODE of "11" before its first ACS step: one finite source at destinations 0 and 2, none at 1 and 3. -/
def acsFirst : State := enterDecode (started .decode [0x31, 0x31])

/-- Before step 3 of decoding "1101000001": all finite, a tie at destination 0 and the source with `R2 = 1` elsewhere (V-ACS-3). -/
def acsLater : State :=
  { metrics (enterDecode (started .decode [0x31, 0x31, 0x30, 0x31, 0x30, 0x30, 0x30, 0x30, 0x30, 0x31])) 3 1 2 1 with
    t := 3
    tbm := [(0, default), (1, default), (2, default)] }

/-- DECODE of "11" after its ACS step: T = NSTEP. -/
def acsDone : State := acsStep true true acsFirst

/-- DECODE of "11" before its traceback step. -/
def tbState : State := selectBest 2 (enterSelect acsDone)

/-- Reset asserted. -/
def heldState : State := assertReset State.reset

theorem idleState_inv : idleState.Inv :=
  inv_of_parts (by decide) (by decide) (by decide) (by decide) (by decide) rfl rfl

theorem encStarted_inv : (started .encode [0x31]).Inv :=
  inv_of_parts (by decide) (by decide) (by decide) (by decide) (by decide)
    (show Operation.encode ≠ .none ∧ (0 : Count) = 0 by decide) rfl

theorem decStarted_inv : (started .decode [0x31, 0x31]).Inv :=
  inv_of_parts (by decide) (by decide) (by decide) (by decide) (by decide)
    (show Operation.decode ≠ .none ∧ (0 : Count) = 0 by decide) rfl

theorem encState_inv : encState.Inv :=
  inv_of_parts (by decide) (by decide) (by decide) (by decide) (by decide)
    (show Operation.encode = .encode ∧ FrameAccepted encState ∧ _ from
      ⟨rfl, ⟨by decide, by decide, by decide, by decide, by decide, by decide⟩, by decide, by decide⟩) rfl

theorem acsFirst_inv : acsFirst.Inv :=
  inv_of_parts (by decide) (by decide) (by decide) (by decide) (by decide)
    (show Operation.decode = .decode ∧ FrameAccepted acsFirst ∧ _ from
      ⟨rfl, ⟨by decide, by decide, by decide, by decide, by decide, by decide⟩, by decide, by decide,
        ⟨by decide, by decide⟩, by unfold traceWritten; decide⟩) rfl

theorem acsLater_inv : acsLater.Inv :=
  inv_of_parts (by decide) (by decide) (by decide) (by decide) (by decide)
    (show Operation.decode = .decode ∧ FrameAccepted acsLater ∧ _ from
      ⟨rfl, ⟨by decide, by decide, by decide, by decide, by decide, by decide⟩, by decide, by decide,
        ⟨by decide, by decide⟩, by unfold traceWritten; decide⟩) rfl

theorem acsDone_inv : acsDone.Inv :=
  inv_of_parts (by decide) (by decide) (by decide) (by decide) (by decide)
    (show Operation.decode = .decode ∧ FrameAccepted acsDone ∧ _ from
      ⟨rfl, ⟨by decide, by decide, by decide, by decide, by decide, by decide⟩, by decide, by decide,
        ⟨by decide, by decide⟩, by unfold traceWritten; decide⟩) rfl

theorem tbState_inv : tbState.Inv :=
  inv_of_parts (by decide) (by decide) (by decide) (by decide) (by decide)
    (show Operation.decode = .decode ∧ FrameAccepted tbState ∧ _ from
      ⟨rfl, ⟨by decide, by decide, by decide, by decide, by decide, by decide⟩, by decide, by decide,
        ⟨by decide, by decide⟩, by unfold traceWritten; decide⟩) rfl

theorem heldState_inv : heldState.Inv where
  params := by decide
  memories := ⟨rfl, rfl, rfl, rfl, rfl, rfl, rfl⟩
  infZero := by decide
  outlenFits := by decide
  busyFlags := by decide
  phase := rfl
  heldInReset := fun _ => rfl

/-- A state with one host input pending. -/
def withInput (s : State) (i : HostInput) : State := { s with inputs := [i] }

/-- The next action is this write. -/
theorem nextWrite_of {s : State} {addr : Nat} {size : AccessSize} {data : Word} {target : Target} (hr : s.rst = false)
    (ht : accessTarget s.params { addr := addr, size := size, kind := .write data } = some target) :
    (withAccess s addr size (.write data)).nextWrite target size data [] :=
  ⟨hr, _, rfl, rfl, rfl, ht⟩

/-- The next action is this read. -/
theorem nextRead_of {s : State} {addr : Nat} {size : AccessSize} {target : Target} (hr : s.rst = false)
    (ht : accessTarget s.params { addr := addr, size := size, kind := .read } = some target) :
    (withAccess s addr size .read).nextRead target size [] :=
  ⟨hr, _, rfl, rfl, rfl, ht⟩

theorem encStarted_started : (started .encode [0x31]).Started := ⟨encStarted_inv, rfl, rfl, rfl⟩

theorem decStarted_started : (started .decode [0x31, 0x31]).Started := ⟨decStarted_inv, rfl, rfl, rfl⟩

theorem encStarted_passes : (started .encode [0x31]).passesCheck := by
  unfold State.passesCheck State.lengthFits State.polynomialsValid State.frameValid; decide

theorem decStarted_passes : (started .decode [0x31, 0x31]).passesCheck := by
  unfold State.passesCheck State.lengthFits State.polynomialsValid State.frameValid; decide

/-- ENCODE started with a LEN one above N_MAX = 64. -/
def tooLong : State := { started .encode [0x31] with lenr := 65 }

/-- DECODE started with a LEN one above 2*N_MAX. -/
def tooLongDecode : State := { started .decode [0x31, 0x31] with lenr := 129 }

/-- ENCODE started with PLEN = 2 in POLY1. -/
def badPoly : State := { started .encode [0x31] with poly1r := 0x2003131 }

/-- DECODE started with an odd length. -/
def oddFrame : State := started .decode [0x31, 0x31, 0x30]

/-- ENCODE started with a byte that is no symbol. -/
def badSymbol : State := started .encode [0x31, 0x61]

theorem badSymbol_started : badSymbol.Started :=
  ⟨inv_of_parts (by decide) (by decide) (by decide) (by decide) (by decide)
    (show Operation.encode ≠ .none ∧ (0 : Count) = 0 by decide) rfl, rfl, rfl, rfl⟩

/-- The same block with another past: other register contents, another OUT byte and another reset. -/
def encStartedOtherPast : State :=
  { started .encode [0x31] with r1 := true, bestr := 2, tap1 := ⟨true, false, false⟩, outBuf := [(5, 0x31)], era := 7, irqEn := true }

theorem encStartedOtherPast_started : encStartedOtherPast.Started :=
  ⟨inv_of_parts (by decide) (by decide) (by decide) (by decide) (by decide)
    (show Operation.encode ≠ .none ∧ (0 : Count) = 0 by decide) rfl, rfl, rfl, rfl⟩

theorem witness_StepRunsDecodedCommand :
    (withAccess idleState 0 .word (.write 1)).rst = false ∧
    (withAccess idleState 0 .word (.write 1)).inputs = .access (cmdWrite idleState.params 1) :: [] ∧
    decode (leBytes 4 1) = .ok .encode := by decide

theorem witness_StepGivesTheBlockItsTurn :
    encState.inputs = [] ∧ (withInput encState .advance).inputs = .advance :: [] := by decide

/-- Both ends of the reserved rows. -/
theorem witness_CommandEncodingRoundTrip :
    ∀ i ∈ [Instr.nop, .encode, .decode, .clear, .illegal47 4, .illegal47 7, .illegal8F 8, .illegal8F 15],
      i.wellFormed = true := by decide

/-- Each row accepts its pattern. -/
theorem witness_CommandMapPartitionsWords :
    commandMap.all (fun r => r.accepts r.pattern && r.accepts (r.pattern ||| 0xFFFFFFF0#32)) = true := by decide

/-- Idle and busy: the clauses of NOP, CLEAR, ENCODE, DECODE and the illegal commands, and of a CMD write. -/
theorem witness_NopChangesNothing : idleState.phase = .idle ∧ encState.phase ≠ .idle := by decide

theorem witness_EncodeAndDecodeStart :
    idleState.phase = .idle ∧ (answered (exec .encode idleState)).isSome = true ∧
    (answered (exec .decode idleState)).isSome = true := by decide

theorem witness_ClearZeroesResults : idleState.phase = .idle ∧ acsLater.phase ≠ .idle := by decide

theorem witness_IllegalCommandCompletes :
    idleState.phase = .idle ∧ (answered (exec (.illegal47 7) idleState)).isSome = true ∧
    (answered (exec (.illegal8F 8) idleState)).isSome = true := by decide

/-- One word for each OP clause, at the ends of its range. -/
theorem witness_CmdWriteIssuesCommand :
    tbState.phase ≠ .idle ∧ idleState.phase = .idle ∧ (0xFFFFFFF0#32).toNat % 16 = 0 ∧ (1#32).toNat % 16 = 1 ∧
    (2#32).toNat % 16 = 2 ∧ (3#32).toNat % 16 = 3 ∧ 4 ≤ (4#32).toNat % 16 ∧ 4 ≤ (0xF#32).toNat % 16 := by decide

theorem witness_CommandIssueFrame :
    (answered (exec .nop encState)).isSome = true ∧ idleState.phase = .idle ∧ Instr.illegal47 4 ≠ .clear ∧
    Instr.clear ≠ .encode ∧ Instr.clear ≠ .decode := by decide

/-- One state for each clause, both ends of the length's range and both reasons for an invalid frame. -/
theorem witness_CheckReportsFirstError :
    (∀ s ∈ [tooLong, tooLongDecode, badPoly, oddFrame, badSymbol],
      s.rst = false ∧ s.phase = .check ∧ (s.opr = .encode ∨ s.opr = .decode)) ∧
    ¬ tooLong.lengthFits ∧ ¬ tooLongDecode.lengthFits ∧ (badPoly.lengthFits ∧ ¬ badPoly.polynomialsValid) ∧
    (oddFrame.lengthFits ∧ oddFrame.polynomialsValid ∧ ¬ oddFrame.frameValid) ∧
    (badSymbol.lengthFits ∧ badSymbol.polynomialsValid ∧ ¬ badSymbol.frameValid) := by
  unfold State.lengthFits State.polynomialsValid State.frameValid; decide

/-- The last clause: a CHECK that fails and answers a next state. -/
theorem witness_CheckReportsFirstError_irq :
    ¬ tooLong.passesCheck ∧ (answered (blockTurn tooLong)).isSome = true := by
  unfold State.passesCheck State.lengthFits State.polynomialsValid State.frameValid; decide

theorem witness_CheckPassEntersDatapath :
    ((started .encode [0x31]).rst = false ∧ (started .encode [0x31]).phase = .check ∧ (started .encode [0x31]).passesCheck ∧
      (started .encode [0x31]).opr = .encode) ∧
    ((started .decode [0x31, 0x31]).rst = false ∧ (started .decode [0x31, 0x31]).phase = .check ∧
      (started .decode [0x31, 0x31]).passesCheck ∧ (started .decode [0x31, 0x31]).opr = .decode) :=
  ⟨⟨rfl, rfl, encStarted_passes, rfl⟩, ⟨rfl, rfl, decStarted_passes, rfl⟩⟩

/-- ENCODE of "1" with its one step taken, and DECODE of "11" with its one traceback step taken. -/
def encDone : State := { encState with t := 1 }

/-- See `encDone`. -/
def tbDone : State := { tbState with t := 0 }

theorem witness_SuccessfulCompletion :
    (encDone.rst = false ∧ encDone.phase = .enc ∧ encDone.opr = .encode ∧ encDone.t = encDone.nstep) ∧
    (tbDone.rst = false ∧ tbDone.phase = .tb ∧ tbDone.opr = .decode ∧ tbDone.t = 0) := by decide

theorem witness_OnlyStartLeavesIdle :
    idleState.phase = .idle ∧
    (answered (step (withAccess idleState 0 .word (.write 1)))).map (fun t => t.phase) = some .check ∧
    (answered (step (withAccess idleState 0 .word (.write 2)))).map (fun t => t.phase) = some .check := by decide

/-- The premises of the equivalence hold of the default G2. -/
theorem witness_PolynomialRegisterMeaning :
    (0x3313031#28).extractLsb' 24 4 = 3#4 ∧ (0x3313031#28).extractLsb' 0 8 = 0x31#8 ∧
    (0x3313031#28).extractLsb' 8 8 = 0x30#8 ∧ (0x3313031#28).extractLsb' 16 8 = 0x31#8 := by decide

/-- The first step, and step 1 of R87's example is test_encoder_step. -/
theorem witness_EncoderStep :
    encState.Inv ∧ encState.rst = false ∧ encState.phase = .enc ∧ encState.t.toNat < encState.nstep.toNat :=
  ⟨encState_inv, by decide⟩

/-- The first step (destinations 0 and 2 through one finite source, 1 and 3 through none), a later one (a tie, the strictly
smaller source with `R2 = 1`), and T = NSTEP. -/
theorem witness_AddCompareSelectStep :
    (acsFirst.Inv ∧ acsFirst.rst = false ∧ acsFirst.phase = .acs ∧ acsFirst.t.toNat < acsFirst.nstep.toNat ∧
      atState acsFirst.pmv 0 = true ∧ atState acsFirst.pmv 1 = false ∧ atState acsFirst.pmv 2 = false ∧
      atState acsFirst.pmv 3 = false) ∧
    (acsLater.Inv ∧ acsLater.rst = false ∧ acsLater.phase = .acs ∧ acsLater.t.toNat < acsLater.nstep.toNat ∧
      acsCandidate acsLater false false 0 false = acsCandidate acsLater false false 0 true ∧
      acsCandidate acsLater false false 1 false = some 3 ∧ acsCandidate acsLater false false 1 true = some 2) ∧
    (acsDone.Inv ∧ acsDone.rst = false ∧ acsDone.phase = .acs ∧ acsDone.t = acsDone.nstep) :=
  ⟨⟨acsFirst_inv, by decide⟩, ⟨acsLater_inv, by decide⟩, ⟨acsDone_inv, by decide⟩⟩

/-- In SEL with metrics 0 for state 2 and 2 for state 0, and with a tie between states 1 and 3 (V-SEL-6). -/
theorem witness_FinalSelection :
    (enterSelect acsDone).rst = false ∧ (enterSelect acsDone).phase = .sel ∧ atState (enterSelect acsDone).pmv 2 = true ∧
    (enterSelect (metrics acsDone 2 1 3 1)).phase = .sel ∧ atState (enterSelect (metrics acsDone 2 1 3 1)).pmv 1 = true := by
  decide

theorem witness_TracebackStep :
    tbState.Inv ∧ tbState.rst = false ∧ tbState.phase = .tb ∧ tbState.t.toNat ≠ 0 := ⟨tbState_inv, by decide⟩

/-- A command of each kind that passes CHECK, and one that fails it. -/
theorem witness_CommandStepCounts :
    ((started .encode [0x31]).Started ∧ (started .encode [0x31]).passesCheck) ∧
    ((started .decode [0x31, 0x31]).Started ∧ (started .decode [0x31, 0x31]).passesCheck) ∧
    (badSymbol.Started ∧ ¬ badSymbol.passesCheck) :=
  ⟨⟨encStarted_started, encStarted_passes⟩, ⟨decStarted_started, decStarted_passes⟩, badSymbol_started, by
    unfold State.passesCheck State.lengthFits State.polynomialsValid State.frameValid; decide⟩

theorem witness_EncodeComputesCode :
    (started .encode [0x31]).Started ∧ (started .encode [0x31]).opr = .encode ∧ (started .encode [0x31]).passesCheck ∧
    (encodeBits ((started .encode [0x31]).frameBits 1) ⟨true, true, true⟩ ⟨true, false, true⟩).1[0]? = some true :=
  ⟨encStarted_started, rfl, encStarted_passes, by decide⟩

theorem witness_DecodeComputesBestPath :
    (started .decode [0x31, 0x31]).Started ∧ (started .decode [0x31, 0x31]).opr = .decode ∧
    (started .decode [0x31, 0x31]).passesCheck ∧
    (decodeBits ((started .decode [0x31, 0x31]).frameBits 2) ⟨true, true, true⟩ ⟨true, false, true⟩).bits[0]? = some true :=
  ⟨decStarted_started, rfl, decStarted_passes, by decide⟩

/-- Two states that differ in nearly everything the statement does not fix. -/
theorem witness_CommandDependsOnFrameOnly :
    let s := started .encode [0x31]
    let s' := encStartedOtherPast
    s.Started ∧ s'.Started ∧ s.params.nMax = s'.params.nMax ∧ s.poly1r = s'.poly1r ∧ s.poly2r = s'.poly2r ∧ s.lenr = s'.lenr ∧
      s.opr = s'.opr ∧ (∀ i < s.lenr.toNat, s.inByte i = s'.inByte i) ∧ s ≠ s' :=
  ⟨encStarted_started, encStartedOtherPast_started, rfl, rfl, rfl, rfl, rfl, by decide, by decide⟩

/-- What the host does during the command: a STATUS read, a turn left to the block, and a dropped CMD write. -/
def disturbance : List HostInput :=
  [hostRd32 Params.reference 4, .advance, hostCommand Params.reference .clear]

theorem witness_HostAccessesCannotDisturbCommand :
    (started .encode [0x31]).rst = false ∧ (∀ level, HostInput.rst level ∉ disturbance) ∧ blockTurns disturbance = 1 ∧
    ([0, 1].map fun j => (answered (runSteps j (started .encode [0x31]))).map fun v => v.busy) = [some true, some true] ∧
    (answered (runSteps 2 (started .encode [0x31]))).isSome = true := by
  refine ⟨rfl, ?_, by decide⟩
  intro level; cases level <;> decide

theorem witness_StepKeepsInvariant :
    (encState.Inv ∧ (answered (step encState)).isSome = true) ∧ (heldState.Inv ∧ (answered (step heldState)).isSome = true) ∧
    (tbState.Inv ∧ (answered (step tbState)).isSome = true) :=
  ⟨⟨encState_inv, by decide⟩, ⟨heldState_inv, by decide⟩, ⟨tbState_inv, by decide⟩⟩

/-- One state of each phase. -/
theorem witness_InvariantStepNeverStops :
    idleState.Inv ∧ (started .decode [0x31, 0x31]).Inv ∧ encState.Inv ∧ acsFirst.Inv ∧ tbState.Inv ∧ heldState.Inv :=
  ⟨idleState_inv, decStarted_inv, encState_inv, acsFirst_inv, tbState_inv, heldState_inv⟩

/-- Both ends of N_MAX's range. -/
theorem witness_FrameCapacityIsConstant :
    (answered (step encState)).isSome = true ∧ ({ nMax := 1, base := 0 } : Params).ok = true ∧
    ({ nMax := 32768, base := 0 } : Params).ok = true := by decide

/-- A byte write of '0' over the '1' in IN[0]. -/
theorem witness_OnlyTheHostWritesIn :
    idleState.inByte 0 = 0x31 ∧
    (answered (step (withAccess idleState 0x10000 .byte (.write 0x30)))).map (fun t => t.inByte 0) = some 0x30 := by decide

/-- An encoder step at both of its indexes, and a traceback step, over other bytes. -/
theorem witness_OnlyTheDatapathWritesOut :
    (encState.outByte 0 = 0x30 ∧ encState.outByte 1 = 0x30 ∧
      (answered (step encState)).map (fun t => (t.outByte 0, t.outByte 1)) = some (0x31, 0x31)) ∧
    (answered (step { tbState with outBuf := [(0, 0x30)] })).map (fun t => t.outByte 0) = some 0x31 := by decide

theorem witness_OnlyCheckLatchesTaps :
    (answered (step (started .encode [0x31]))).map (fun t => (t.tap1, t.tap2)) =
      some (⟨true, true, true⟩, ⟨true, false, true⟩) ∧
    (started .encode [0x31]).tap1 = ⟨false, false, false⟩ := by decide

/-- Each register changed by its write. -/
theorem witness_OnlyTheHostWritesConfiguration :
    (idleState.irqEn, idleState.lenr, idleState.poly1r, idleState.poly2r) = (false, 1, 0x3313131, 0x3313031) ∧
    (answered (step (withAccess idleState 0x08 .word (.write 1)))).map (fun t => t.irqEn) = some true ∧
    (answered (step (withAccess idleState 0x0C .word (.write 9)))).map (fun t => t.lenr) = some 9 ∧
    (answered (step (withAccess idleState 0x10 .word (.write 0)))).map (fun t => t.poly1r) = some 0 ∧
    (answered (step (withAccess idleState 0x14 .word (.write 0)))).map (fun t => t.poly2r) = some 0 := by decide

/-- OVR up by a dropped write and down by CLEAR; DONE up by a completion and by an illegal command and down by a start; ERR
changed by a failing CHECK; BUSY up by a start and down by a completion. -/
theorem witness_FlagChangesHaveCauses :
    (answered (step (withAccess encState 0 .word (.write 0)))).map (fun t => t.ovr) = some true ∧ encState.ovr = false ∧
    (answered (step (withAccess { idleState with ovr := true } 0 .word (.write 3)))).map (fun t => t.ovr) = some false ∧
    (answered (step encDone)).map (fun t => (t.done, t.busy)) = some (true, false) ∧ (encDone.done, encDone.busy) = (false, true) ∧
    (answered (step (withAccess idleState 0 .word (.write 4)))).map (fun t => t.done) = some true ∧ idleState.done = false ∧
    (answered (step (withAccess { idleState with done := true } 0 .word (.write 2)))).map (fun t => t.done) = some false ∧
    (answered (step (withAccess idleState 0 .word (.write 1)))).map (fun t => t.busy) = some true ∧ idleState.busy = false ∧
    (answered (step tooLong)).map (fun t => t.err) = some .lengthRange ∧ tooLong.err = .ok := by decide

/-- A completion, a start, an illegal command, a reset and a CTRL write. -/
theorem witness_InterruptLevel :
    (encDone.nextTurn ∧ encDone.busy = true ∧ (answered (step encDone)).map (fun t => t.busy) = some false) ∧
    (idleState.busy = false ∧ (answered (exec .clear idleState)).isSome = true ∧
      (answered (exec (.illegal8F 9) idleState)).isSome = true) ∧
    (withInput encState (.rst true)).nextReset ∧
    (withAccess idleState 0x08 .word (.write 1)).nextWrite (.register .ctrl) .word 1 [] :=
  ⟨⟨⟨rfl, .inl rfl⟩, by decide⟩, by decide, .inl ⟨[], rfl⟩, nextWrite_of rfl (by decide)⟩

/-- In the middle of a command, and held. -/
theorem witness_ResetSetsResetValues :
    (withInput acsLater (.rst true)).nextReset ∧ heldState.nextReset ∧ (withInput heldState .advance).nextReset ∧
    acsLater.params.ok = true :=
  ⟨.inl ⟨[], rfl⟩, .inr ⟨rfl, .inl rfl⟩, .inr ⟨rfl, .inr ⟨[], rfl⟩⟩, by decide⟩

theorem heldInput_inv : (withInput heldState (.rst false)).Inv where
  params := by decide
  memories := ⟨rfl, rfl, rfl, rfl, rfl, rfl, rfl⟩
  infZero := by decide
  outlenFits := by decide
  busyFlags := by decide
  phase := rfl
  heldInReset := fun _ => rfl

/-- A read of an unmapped address while held, the release of reset, and an idle block. -/
theorem witness_AccessInResetHasNoEffect :
    ((withAccess heldState 0x40 .half .read).rst = true ∧
      (withAccess heldState 0x40 .half .read).inputs = .access ⟨0x40, .half, .read⟩ :: []) ∧
    ((withInput heldState (.rst false)).Inv ∧ (withInput heldState (.rst false)).rst = true ∧
      (withInput heldState (.rst false)).inputs = .rst false :: []) ∧
    (idleState.rst = false ∧ idleState.phase = .idle) :=
  ⟨by decide, ⟨heldInput_inv, by decide⟩, by decide⟩

/-- Legal and illegal accesses where the clauses of the map meet, for N_MAX = 64 and BASE = 0x1000. -/
theorem witness_BusErrorExactly :
    let p : Params := { nMax := 64, base := 0x1000 }
    p.ok = true ∧
    ([0x1000, 0x103C, 0x11000, 0x1107C, 0x21000, 0x2107C].map
      fun a => (accessTarget p ⟨a, .word, .read⟩).isSome) = List.replicate 6 true ∧
    ([0xFFC, 0x1002, 0x1040, 0x10FFC, 0x11002, 0x1107E, 0x11080, 0x20FFC, 0x21080, 0x40FFC, 0x41000].map
      fun a => (accessTarget p ⟨a, .word, .read⟩).isSome) = List.replicate 11 false := by decide

/-- The map's first and last register, written and read, and the windows' last accesses for both ends of N_MAX. -/
theorem witness_AddressMap :
    accessTarget ⟨1, 0x1000⟩ ⟨0x1000, .word, .write 1⟩ = some (.register .cmd) ∧
    accessTarget ⟨1, 0x1000⟩ ⟨0x103C, .word, .read⟩ = some (.register .reserved3C) ∧
    ({ nMax := 1, base := 0x1000 } : Params).ok = true ∧ ({ nMax := 32768, base := 0 } : Params).ok = true ∧ 65532 + sizeBytes .word ≤ 2 * 32768 ∧ 65532 % sizeBytes .word = 0 ∧
    1 + sizeBytes .byte ≤ 2 * 1 ∧ 1 % sizeBytes .byte = 0 ∧
    offsetTarget { nMax := 32768, base := 0 } 0x1FFFC .word = some (.input 65532) ∧
    offsetTarget { nMax := 32768, base := 0 } 0x2FFFC .word = some (.output 65532) := by decide

theorem witness_ReadsHaveNoSideEffect :
    AccessKind.read = .read ∧ (withAccess encState 0x20000 .word .read).inputs = .access ⟨0x20000, .word, .read⟩ :: [] := by
  decide

/-- A half-word write at the end of IN, and reads of both windows. -/
theorem witness_LittleEndianWindows :
    (idleState.busy = false ∧ (withAccess idleState 0x1007E .half (.write 0x3130)).nextWrite (.input 126) .half 0x3130 []) ∧
    (withAccess idleState 0x10000 .byte .read).nextRead (.input 0) .byte [] ∧
    (withAccess idleState 0x20000 .word .read).nextRead (.output 0) .word [] :=
  ⟨⟨rfl, nextWrite_of rfl (by decide)⟩, nextRead_of rfl (by decide), nextRead_of rfl (by decide)⟩

theorem witness_RegisterWritesTakeEffect :
    idleState.busy = false ∧
    (withAccess idleState 0x08 .word (.write 1)).nextWrite (.register .ctrl) .word 1 [] ∧
    (withAccess idleState 0x0C .word (.write 0x1FFFF)).nextWrite (.register .len) .word 0x1FFFF [] ∧
    (withAccess idleState 0x10 .word (.write 7)).nextWrite (.register .poly1) .word 7 [] ∧
    (withAccess idleState 0x14 .word (.write 7)).nextWrite (.register .poly2) .word 7 [] :=
  ⟨rfl, nextWrite_of rfl (by decide), nextWrite_of rfl (by decide), nextWrite_of rfl (by decide), nextWrite_of rfl (by decide)⟩

/-- Busy: a dropped IN write, a CTRL write, and ignored writes to STATUS and OUT. -/
theorem witness_DroppedAndIgnoredWrites :
    encState.busy = true ∧ droppedWhileBusy (.input 0) = true ∧
    (withAccess encState 0x10000 .byte (.write 0x30)).nextWrite (.input 0) .byte 0x30 [] ∧
    (withAccess encState 0x08 .word (.write 1)).nextWrite (.register .ctrl) .word 1 [] ∧
    readOnlyTarget (.register .status) = true ∧ readOnlyTarget (.output 0) = true ∧
    (withAccess encState 0x04 .word (.write 0)).nextWrite (.register .status) .word 0 [] ∧
    (withAccess encState 0x20000 .half (.write 0)).nextWrite (.output 0) .half 0 [] :=
  ⟨by decide, by decide, nextWrite_of rfl (by decide), nextWrite_of rfl (by decide), by decide, by decide,
    nextWrite_of rfl (by decide), nextWrite_of rfl (by decide)⟩

/-- A free read and a current read while busy, an OUT read while busy, and a result read while idle. -/
theorem witness_BusyReadsAreFree :
    encState.busy = true ∧ idleState.busy = false ∧
    (withAccess encState 0x18 .word .read).nextRead (.register .outlen) .word [] ∧
    (withAccess encState 0x04 .word .read).nextRead (.register .status) .word [] ∧
    (withAccess encState 0x20001 .byte .read).nextRead (.output 1) .byte [] ∧
    (withAccess idleState 0x30 .word .read).nextRead (.register .pm3) .word [] :=
  ⟨by decide, by decide, nextRead_of rfl (by decide), nextRead_of rfl (by decide), nextRead_of rfl (by decide),
    nextRead_of rfl (by decide)⟩

/-- Both ends of N_MAX's range, and a state for each ERR code. -/
theorem witness_ReadOnlyRegisterValues :
    ({ State.reset with params := ⟨1, 0⟩ } : State).params.ok = true ∧
    ({ State.reset with params := ⟨32768, 0⟩ } : State).params.ok = true ∧
    [ErrCode.ok, .invalidPolynomial, .invalidInput, .illegalCmd, .lengthRange].map
      (fun e => ({ State.reset with done := true, err := e } : State).statusWord) = [0x02, 0x12, 0x22, 0x32, 0x42] := by decide

theorem witness_EncoderFunctionLaws : [true, false].length = [false, true].length := by decide

theorem witness_DecodeIsMinimumDistance :
    [true, false, false, true].length % 2 = 0 ∧ [false, true].length = [true, false, false, true].length / 2 := by decide

/-- V-RT's two cases: a tap on the current input, and none with an input that ends in 1. -/
theorem witness_CodecRoundTrip :
    (⟨true, true, true⟩ : Taps).g0 = true ∧ (⟨false, true, true⟩ : Taps).g0 = false ∧
    [false, true] ≠ [] ∧ [false, true].getLast? = some true := by decide

/-- The last position before the last pair and both positions in it, for an input that ends in 1 and one that does not. -/
theorem witness_SingleErrorCorrection :
    [false, true] ≠ [] ∧ 1 < 2 * [false, true].length ∧ ¬ (2 * [false, true].length ≤ 1 + 2) ∧
    2 * [false, true].length ≤ 2 + 2 ∧ 3 < 2 * [false, true].length ∧ [false, true].getLast? = some true ∧
    [true, false].getLast? ≠ some true := by decide

theorem witness_InjectErrorsFlipsPerOccurrence :
    [true, false][1]? = some false ∧ [1, 5, 1, 1].count 1 % 2 = 1 ∧ [0, 0].count 0 % 2 ≠ 1 := by decide

end Sys2Proof.Tests
end

section
/-! The host-side error injector (R6): one flip, then a list of flips, read at each index. -/
namespace Sys2Proof.Machine

/-- One flip is the library's update of a list at an index. -/
theorem flipBit_eq_modify (bits : List Bool) (pos : Nat) : flipBit bits pos = bits.modify pos not := by
  induction bits generalizing pos with
  | nil => cases pos <;> rfl
  | cons b rest ih =>
    cases pos with
    | zero => rfl
    | succ pos => simp [flipBit, ih]

@[simp] theorem length_flipBit (bits : List Bool) (pos : Nat) : (flipBit bits pos).length = bits.length := by
  rw [flipBit_eq_modify, List.length_modify]

theorem getElem?_flipBit (bits : List Bool) (pos i : Nat) :
    (flipBit bits pos)[i]? = bits[i]?.map (· ^^ decide (pos = i)) := by
  rw [flipBit_eq_modify, List.getElem?_modify]
  by_cases h : pos = i <;> simp [h]

@[simp] theorem injectErrors_nil (coded : List Bool) : injectErrors coded [] = coded := rfl

@[simp] theorem injectErrors_cons (coded : List Bool) (pos : Nat) (positions : List Nat) :
    injectErrors coded (pos :: positions) = injectErrors (flipBit coded pos) positions := rfl

@[simp] theorem length_injectErrors (coded : List Bool) (positions : List Nat) :
    (injectErrors coded positions).length = coded.length := by
  induction positions generalizing coded with
  | nil => rfl
  | cons pos positions ih => rw [injectErrors_cons, ih, length_flipBit]

/-- An index at the head of the list changes the parity of its own count and of no other. -/
theorem odd_count_cons (pos i : Nat) (positions : List Nat) :
    decide ((pos :: positions).count i % 2 = 1) = (decide (pos = i) ^^ decide (positions.count i % 2 = 1)) := by
  by_cases h : pos = i
  · subst h
    rcases Nat.mod_two_eq_zero_or_one (positions.count pos) with even | odd
    · simp [even, Nat.add_mod]
    · simp [odd, Nat.add_mod]
  · simp [h]

/-- R6 at one index, in range or not: the flips that name it cancel in pairs. -/
theorem getElem?_injectErrors (coded : List Bool) (positions : List Nat) (i : Nat) :
    (injectErrors coded positions)[i]? = coded[i]?.map (· ^^ decide (positions.count i % 2 = 1)) := by
  induction positions generalizing coded with
  | nil => simp
  | cons pos positions ih =>
    rw [injectErrors_cons, ih, getElem?_flipBit, Option.map_map, odd_count_cons]
    congr 1
    funext b
    exact Bool.xor_assoc b _ _

/-- Settles O52, by induction on the positions: each flip toggles the parity of its own index's count. -/
theorem injectErrorsFlipsPerOccurrence : Obligations.InjectErrorsFlipsPerOccurrence := by
  intro coded positions
  refine ⟨length_injectErrors coded positions, fun i b hb => ?_⟩
  rw [getElem?_injectErrors, hb, Option.map_some]

end Sys2Proof.Machine
end

section
/-! What one step did, by name: one constructor for each thing a turn of the block or a host input can do, with the guard the
model checks before it. The statements about changes of the state are case analyses of it. -/

namespace Sys2Proof.Machine

/-- What the sequencer's turn can do from `s` (R70 to R103). -/
inductive TurnEffect (s : State) : State → Prop
  | idle (hphase : s.phase = .idle) : TurnEffect s s
  | checkFails {code : ErrCode} (hphase : s.phase = .check) (hopr : s.opr ≠ .none) (herr : checkError s = some code) :
      TurnEffect s (raiseError code s)
  | checkPassesEncode (hphase : s.phase = .check) (hopr : s.opr = .encode) (hpass : s.passesCheck) :
      TurnEffect s (enterEncode s)
  | checkPassesDecode (hphase : s.phase = .check) (hopr : s.opr = .decode) (hpass : s.passesCheck) :
      TurnEffect s (enterDecode s)
  | encodes {b : Bool} (hphase : s.phase = .enc) (hlt : s.t < s.nstep) (hfits : s.t.toNat < s.params.nMax)
      (hbit : s.inBit s.t.toNat = some b) : TurnEffect s (encoderStep b s)
  | encodeCompletes (hphase : s.phase = .enc) (hlast : s.t = s.nstep) : TurnEffect s (completeCommand s)
  | selectsSurvivors {r0 r1 : Bool} (hphase : s.phase = .acs) (hlt : s.t < s.nstep) (hfits : s.t.toNat < s.params.nMax)
      (hbit0 : s.inBit (2 * s.t.toNat) = some r0) (hbit1 : s.inBit (2 * s.t.toNat + 1) = some r1)
      (hmetrics : ∀ d, metricFits (acsDestination s r0 r1 d).1 = true) : TurnEffect s (acsStep r0 r1 s)
  | entersSelect (hphase : s.phase = .acs) (hlast : s.t = s.nstep) : TurnEffect s (enterSelect s)
  | selectsBest {k : TrellisState} (hphase : s.phase = .sel) (hbest : bestState (perState s.metric) = some k) :
      TurnEffect s (selectBest k s)
  | tracesBack (hphase : s.phase = .tb) (hmore : s.t ≠ 0) (hfits : s.t.toNat ≤ s.params.nMax) :
      TurnEffect s (tracebackStep s)
  | decodeCompletes (hphase : s.phase = .tb) (hzero : s.t = 0) : TurnEffect s (completeCommand s)

theorem turnEffect_of_sequencerStep {s t : State} (h : sequencerStep s = .next t) : TurnEffect s t := by
  unfold sequencerStep at h
  split at h <;> rename_i hphase
  case h_1 => cases h; exact .idle hphase
  case h_2 =>
    obtain ⟨code, hopr, herr, rfl⟩ | ⟨hopr, hok, rfl⟩ | ⟨hopr, hok, rfl⟩ := checkPhase_cases h
    · exact .checkFails hphase hopr herr
    · exact .checkPassesEncode hphase hopr ((checkError_eq_none_iff (by simp [hopr])).1 hok)
    · exact .checkPassesDecode hphase hopr ((checkError_eq_none_iff (by simp [hopr])).1 hok)
  case h_3 =>
    obtain ⟨hlast, rfl⟩ | ⟨b, hlt, hfits, hbit, rfl⟩ := encPhase_cases h
    · exact .encodeCompletes hphase hlast
    · exact .encodes hphase hlt hfits hbit
  case h_4 =>
    obtain ⟨hlast, rfl⟩ | ⟨r0, r1, hlt, hfits, h0, h1, hmetrics, rfl⟩ := acsPhase_cases h
    · exact .entersSelect hphase hlast
    · exact .selectsSurvivors hphase hlt hfits h0 h1 hmetrics
  case h_5 =>
    obtain ⟨k, hk, rfl⟩ := selPhase_cases h
    exact .selectsBest hphase hk
  case h_6 =>
    obtain ⟨hzero, rfl⟩ | ⟨hmore, hfits, rfl⟩ := tbPhase_cases h
    · exact .decodeCompletes hphase hzero
    · exact .tracesBack hphase hmore hfits

/-- What one step can do from `s`: a reset event, an answer to the host, a write with its effect, or the block's turn. -/
inductive StepEffect (s : State) : State → Prop
  | reset (l : List HostInput) (hreset : s.nextReset) : StepEffect s (assertReset (s.withInputs l))
  | release (l : List HostInput) : StepEffect s (deassertReset (s.withInputs l))
  | answer (l : List HostInput) (status : BusStatus) (data : Word) : StepEffect s ((s.withInputs l).respond status data)
  | answerFree (l : List HostInput) (n : Nat) : StepEffect s ((s.withInputs l).respondFree n)
  | dropped {target : Target} {size : AccessSize} {data : Word} {rest : List HostInput}
      (hwrite : s.nextWrite target size data rest) (hdropped : droppedWhileBusy target = true) (hbusy : s.busy = true) :
      StepEffect s ((s.withInputs rest).respond .okay 0).withOverrun
  | command {data : Word} {rest : List HostInput} {i : Instr} (hwrite : s.nextWrite (.register .cmd) .word data rest)
      (hidle : s.busy = false) (hdecode : decodeWord data = .ok i) :
      StepEffect s (commandEffect i ((s.withInputs rest).respond .okay 0))
  | ctrlWrite {data : Word} {rest : List HostInput} (hwrite : s.nextWrite (.register .ctrl) .word data rest) :
      StepEffect s (writeCtrl data ((s.withInputs rest).respond .okay 0))
  | lenWrite {data : Word} {rest : List HostInput} (hwrite : s.nextWrite (.register .len) .word data rest)
      (hidle : s.busy = false) : StepEffect s (writeLen data ((s.withInputs rest).respond .okay 0))
  | poly1Write {data : Word} {rest : List HostInput} (hwrite : s.nextWrite (.register .poly1) .word data rest)
      (hidle : s.busy = false) : StepEffect s (writePoly1 data ((s.withInputs rest).respond .okay 0))
  | poly2Write {data : Word} {rest : List HostInput} (hwrite : s.nextWrite (.register .poly2) .word data rest)
      (hidle : s.busy = false) : StepEffect s (writePoly2 data ((s.withInputs rest).respond .okay 0))
  | inWrite {i : Nat} {size : AccessSize} {data : Word} {rest : List HostInput}
      (hwrite : s.nextWrite (.input i) size data rest) (hidle : s.busy = false) :
      StepEffect s (writeIn i (sizeBytes size) data ((s.withInputs rest).respond .okay 0))
  | turn (l : List HostInput) {t : State} (hturn : s.nextTurn) (heffect : TurnEffect (s.withInputs l) t) : StepEffect s t

/-- With the level already 1, the reset event and the assertion of reset leave the same state (R126). -/
theorem assertReset_of_rst {s : State} (h : s.rst = true) : assertReset s = s.resetBlock := by
  simp [assertReset, State.resetBlock, h]

@[simp] theorem State.withInputs_self (s : State) : s.withInputs s.inputs = s := rfl

theorem stepEffect_of_blockTurn {s t : State} (l : List HostInput)
    (hinputs : s.inputs = [] ∨ ∃ rest, s.inputs = .advance :: rest) (h : blockTurn (s.withInputs l) = .next t) :
    StepEffect s t := by
  by_cases hrst : s.rst = true
  · have ht : t = assertReset (s.withInputs l) := by
      rw [assertReset_of_rst (s := s.withInputs l) hrst]
      simpa [blockTurn, hrst] using h.symm
    exact ht ▸ .reset l (.inr ⟨hrst, hinputs⟩)
  · have hlow : s.rst = false := by simpa using hrst
    exact .turn l ⟨hlow, hinputs⟩ (turnEffect_of_sequencerStep (by simpa [blockTurn, hlow] using h))

/-- Only a 4-byte access reaches a register (R45). -/
theorem size_of_accessTarget_register {p : Params} {a : Access} {r : Register}
    (h : accessTarget p a = some (.register r)) : a.size = .word := by
  obtain ⟨-, hoffset⟩ := accessTarget_cases h
  obtain ⟨r', -, hsize, -⟩ | ⟨i, htarget, -⟩ | ⟨i, htarget, -⟩ := offsetTarget_cases hoffset
  · exact hsize
  · cases htarget
  · cases htarget

/-- An access to the IN window lies inside it (R42). -/
theorem inside_of_accessTarget_input {p : Params} {a : Access} {i : Nat} (h : accessTarget p a = some (.input i)) :
    i + sizeBytes a.size ≤ 2 * p.nMax := by
  obtain ⟨-, hoffset⟩ := accessTarget_cases h
  obtain ⟨r, htarget, -⟩ | ⟨j, htarget, -, hinside, -⟩ | ⟨j, htarget, -⟩ := offsetTarget_cases hoffset
  · cases htarget
  · cases htarget; exact hinside
  · cases htarget

theorem stepEffect_of_writeRegister {s t : State} {r : Register} {data : Word} {rest : List HostInput}
    (hwrite : s.nextWrite (.register r) .word data rest)
    (h : writeRegister r data ((s.withInputs rest).respond .okay 0) = .next t) : StepEffect s t := by
  obtain ⟨rfl, i, hdecode, hexec⟩ | ⟨rfl, rfl⟩ | ⟨hr, hbusy, rfl⟩ | ⟨rfl, hidle, rfl⟩ | ⟨rfl, hidle, rfl⟩ |
    ⟨rfl, hidle, rfl⟩ | ⟨-, -, -, -, -, rfl⟩ := writeRegister_cases h
  · obtain ⟨hbusy, rfl⟩ | ⟨hidle, rfl⟩ := exec_cases hexec
    · exact .dropped hwrite rfl hbusy
    · exact .command hwrite hidle hdecode
  · exact .ctrlWrite hwrite
  · exact .dropped hwrite (by rcases hr with rfl | rfl | rfl <;> rfl) hbusy
  · exact .lenWrite hwrite hidle
  · exact .poly1Write hwrite hidle
  · exact .poly2Write hwrite hidle
  · exact .answer rest .okay 0

theorem stepEffect_of_busAccess {s t : State} {a : Access} {rest : List HostInput} (hinputs : s.inputs = .access a :: rest)
    (h : busAccess a (s.withInputs rest) = .next t) : StepEffect s t := by
  obtain ⟨-, rfl⟩ | ⟨-, -, rfl⟩ | ⟨-, -, ⟨data, rfl⟩ | ⟨n, rfl⟩⟩ | ⟨data, r, hrst, hkind, htarget, hreg⟩ |
    ⟨data, i, hrst, hkind, htarget, ⟨hbusy, rfl⟩ | ⟨hidle, rfl⟩⟩ | ⟨data, i, -, -, -, rfl⟩ := busAccess_cases h
  · exact .answer rest _ _
  · exact .answer rest _ _
  · exact .answer rest _ _
  · exact .answerFree rest _
  · exact stepEffect_of_writeRegister
      ⟨hrst, a, hinputs, hkind, size_of_accessTarget_register htarget, htarget⟩ hreg
  · exact .dropped ⟨hrst, a, hinputs, hkind, rfl, htarget⟩ rfl hbusy
  · exact .inWrite ⟨hrst, a, hinputs, hkind, rfl, htarget⟩ hidle
  · exact .answer rest _ _

/-- Every step has one of the named effects (R41, R126). -/
theorem stepEffect_of_step {s t : State} (h : step s = .next t) : StepEffect s t := by
  obtain ⟨hinputs, hturn⟩ | ⟨i, rest, hinputs, ⟨a, rfl, haccess⟩ | ⟨rfl, rfl⟩ | ⟨rfl, rfl⟩ | ⟨rfl, hturn⟩⟩ := step_cases h
  · exact stepEffect_of_blockTurn s.inputs (.inl hinputs) (by simpa using hturn)
  · exact stepEffect_of_busAccess hinputs haccess
  · exact .reset rest (.inl ⟨rest, hinputs⟩)
  · exact .release rest
  · exact stepEffect_of_blockTurn rest (.inr ⟨rest, hinputs⟩) hturn

/-- What no turn of the sequencer writes: the configuration, OVR, IN, the parameters and the host's side. -/
theorem TurnEffect.keeps {s t : State} (h : TurnEffect s t) :
    t.ovr = s.ovr ∧ t.irqEn = s.irqEn ∧ t.lenr = s.lenr ∧ t.poly1r = s.poly1r ∧ t.poly2r = s.poly2r ∧ t.inBuf = s.inBuf ∧
    t.params = s.params ∧ t.rst = s.rst ∧ t.inputs = s.inputs ∧ t.resp = s.resp ∧ t.era = s.era ∧ t.draws = s.draws := by
  cases h <;> simp

/-- The sequencer's turn does nothing while IDLE (R70). -/
theorem TurnEffect.eq_of_idle {s t : State} (h : TurnEffect s t) (hidle : s.phase = .idle) : t = s := by
  cases h with
  | idle => rfl
  | checkFails hphase | checkPassesEncode hphase | checkPassesDecode hphase | encodes hphase | encodeCompletes hphase
  | selectsSurvivors hphase | entersSelect hphase | selectsBest hphase | tracesBack hphase | decodeCompletes hphase =>
    simp [hphase] at hidle

/-- What no command's issue writes: the taps, NSTEP, the configuration, the memories, the parameters and the host's side. -/
@[simp] theorem commandEffect_keeps (i : Instr) (s : State) :
    (commandEffect i s).tap1 = s.tap1 ∧ (commandEffect i s).tap2 = s.tap2 ∧ (commandEffect i s).tbm = s.tbm ∧
    (commandEffect i s).nstep = s.nstep ∧ (commandEffect i s).irqEn = s.irqEn ∧ (commandEffect i s).lenr = s.lenr ∧
    (commandEffect i s).poly1r = s.poly1r ∧ (commandEffect i s).poly2r = s.poly2r ∧ (commandEffect i s).inBuf = s.inBuf ∧
    (commandEffect i s).outBuf = s.outBuf ∧ (commandEffect i s).params = s.params ∧ (commandEffect i s).rst = s.rst ∧
    (commandEffect i s).inputs = s.inputs ∧ (commandEffect i s).resp = s.resp ∧ (commandEffect i s).era = s.era ∧
    (commandEffect i s).draws = s.draws := by
  cases i <;> simp [commandEffect]

end Sys2Proof.Machine
end

section
/-! The host's view of the registers: a step that takes a read or a write, a register word as the sum of its fields, and the
low bytes of a free value (spec/10_state.md R26 to R38). -/

namespace Sys2Proof

/-- A word of two parts is the sum of the parts at their places. -/
theorem toNat_append_eq_add {m n : Nat} (x : BitVec m) (y : BitVec n) : (x ++ y).toNat = x.toNat * 2 ^ n + y.toNat := by
  rw [BitVec.toNat_append, ← Nat.shiftLeft_add_eq_or_of_lt y.isLt, Nat.shiftLeft_eq]

/-- The writable low bits of a word under reserved zeros are the word with its upper bits masked off. -/
theorem zero_append_setWidth_eq_and {m n : Nat} (w : BitVec (m + n)) :
    (0 : BitVec m) ++ w.setWidth n = w &&& BitVec.ofNat (m + n) (2 ^ n - 1) := by
  have hmask : (2 ^ n - 1) % 2 ^ (m + n) = 2 ^ n - 1 := by
    have hle := Nat.pow_le_pow_right (n := 2) (by omega) (Nat.le_add_left n m)
    have hpos := Nat.two_pow_pos n
    exact Nat.mod_eq_of_lt (by omega)
  apply BitVec.eq_of_toNat_eq
  rw [toNat_append_eq_add, BitVec.toNat_and, BitVec.toNat_ofNat, hmask, Nat.and_two_pow_sub_one_eq_mod]
  simp

/-- The low `n` bytes of a word make the word modulo 2^(8n) (R44). -/
theorem toNat_ofLeBytes_leBytes {n : Nat} (hn : n ≤ 4) (w : Word) :
    (ofLeBytes (leBytes n w)).toNat = w.toNat % 2 ^ (8 * n) := by
  induction n generalizing w with
  | zero => simp [leBytes, ofLeBytes, Nat.mod_one]
  | succ n ih =>
    have hpow : 2 ^ (8 * (n + 1)) = 2 ^ 8 * 2 ^ (8 * n) := by rw [← Nat.pow_add]; congr 1; omega
    have hfits : 2 ^ 8 * 2 ^ (8 * n) ≤ 2 ^ 32 := hpow ▸ Nat.pow_le_pow_right (by omega) (by omega)
    have hlow : w.toNat % 2 ^ 8 < 2 ^ 8 := Nat.mod_lt _ (by omega)
    have hhigh : w.toNat / 2 ^ 8 % 2 ^ (8 * n) < 2 ^ (8 * n) := Nat.mod_lt _ (Nat.two_pow_pos _)
    calc (ofLeBytes (leBytes (n + 1) w)).toNat
        = w.toNat % 2 ^ 8 % 2 ^ 32 ||| (w.toNat / 2 ^ 8 % 2 ^ (8 * n)) <<< 8 % 2 ^ 32 := by
          simp only [leBytes, ofLeBytes, BitVec.toNat_or, BitVec.toNat_shiftLeft, BitVec.toNat_setWidth,
            ih (Nat.le_of_succ_le hn), BitVec.toNat_ushiftRight, Nat.shiftRight_eq_div_pow]
      _ = w.toNat % 2 ^ 8 ||| (w.toNat / 2 ^ 8 % 2 ^ (8 * n)) <<< 8 := by
          have hshift : (w.toNat / 2 ^ 8 % 2 ^ (8 * n)) <<< 8 < 2 ^ 32 := by rw [Nat.shiftLeft_eq]; omega
          rw [Nat.mod_eq_of_lt (hlow.trans (by omega)), Nat.mod_eq_of_lt hshift]
      _ = w.toNat % 2 ^ 8 + 2 ^ 8 * (w.toNat / 2 ^ 8 % 2 ^ (8 * n)) := by
          rw [Nat.lor_comm, ← Nat.shiftLeft_add_eq_or_of_lt hlow, Nat.shiftLeft_eq]
          omega
      _ = w.toNat % 2 ^ (8 * (n + 1)) := by rw [hpow, Nat.mod_mul]

end Sys2Proof

namespace Sys2Proof.Machine

/-- The next step answers a pending read. -/
theorem step_of_nextRead {s : State} {target : Target} {size : AccessSize} {rest : List HostInput}
    (h : s.nextRead target size rest) : step s = .next (busRead target size (s.withInputs rest)) := by
  obtain ⟨hrst, a, hinputs, hkind, rfl, htarget⟩ := h
  simp [step, hinputs, takeInput, busAccess, hrst, htarget, hkind]

/-- The next step acknowledges a pending write and makes it. -/
theorem step_of_nextWrite {s : State} {target : Target} {size : AccessSize} {data : Word} {rest : List HostInput}
    (h : s.nextWrite target size data rest) :
    step s = busWrite target size data ((s.withInputs rest).respond .okay 0) := by
  obtain ⟨hrst, a, hinputs, hkind, rfl, htarget⟩ := h
  simp [step, hinputs, takeInput, busAccess, hrst, htarget, hkind]

@[simp] theorem busy_withInputs (l : List HostInput) (s : State) : (s.withInputs l).busy = s.busy := rfl

@[simp] theorem busy_respond (status : BusStatus) (data : Word) (s : State) : (s.respond status data).busy = s.busy := rfl

/-- The pending inputs show in no register. -/
@[simp] theorem registerWord_withInputs (l : List HostInput) (s : State) (r : Register) :
    (s.withInputs l).registerWord r = s.registerWord r := by
  cases r <;> rfl

theorem mem_resultRegisters_iff (r : Register) :
    r ∈ [.outlen, .encState, .best, .pm0, .pm1, .pm2, .pm3] ↔ isResultRegister r = true := by
  cases r <;> decide

/-- A read of a result register while BUSY gets a free value, any other register read the register's value (R38). -/
theorem busRead_register (r : Register) (size : AccessSize) (s : State) :
    busRead (.register r) size s =
      if s.busy = true ∧ r ∈ [.outlen, .encState, .best, .pm0, .pm1, .pm2, .pm3] then s.respondFree 4
      else s.respond .okay (s.registerWord r) := by
  simp only [mem_resultRegisters_iff, busRead, Bool.and_eq_true]

theorem busRead_output_busy {s : State} (hbusy : s.busy = true) (i : Nat) (size : AccessSize) :
    busRead (.output i) size s = s.respondFree (sizeBytes size) := by
  simp [busRead, hbusy]

theorem sizeBytes_le_four (size : AccessSize) : sizeBytes size ≤ 4 := by cases size <;> decide

/-- Settles O46. -/
theorem busyReadsAreFree : Obligations.BusyReadsAreFree := by
  intro s rest
  constructor
  · intro r hread
    refine ⟨_, step_of_nextRead hread, fun hfree => ?_, fun hcurrent => ?_⟩
    · rw [busRead_register, busy_withInputs, if_pos hfree]
      simp
    · have hnot : ¬ (s.busy = true ∧ r ∈ [.outlen, .encState, .best, .pm0, .pm1, .pm2, .pm3]) := by
        rintro ⟨hbusy, hresult⟩
        exact hcurrent.elim (fun hidle => by simp [hidle] at hbusy) (· hresult)
      rw [busRead_register, busy_withInputs, if_neg hnot]
      simp
  · intro i size hread hbusy
    have hstep := step_of_nextRead hread
    rw [busRead_output_busy (s := s.withInputs rest) hbusy] at hstep
    exact ⟨_, _, hstep, rfl, toNat_ofLeBytes_leBytes (sizeBytes_le_four size) _, rfl⟩

/-- While idle, a write that BUSY would drop takes effect on the acknowledged state (R49). -/
theorem writeUnlessBusy_acknowledged {s : State} (hidle : s.busy = false) (effect : State → State) (rest : List HostInput) :
    writeUnlessBusy effect ((s.withInputs rest).respond .okay 0) = .next (effect ((s.withInputs rest).respond .okay 0)) := by
  simp [writeUnlessBusy, hidle]

/-- Settles O44: each of the four registers takes its low bits, and the write changes nothing else. -/
theorem registerWritesTakeEffect : Obligations.RegisterWritesTakeEffect := by
  intro s data rest r hwrite
  have hstep := step_of_nextWrite hwrite
  refine ⟨?_, ?_, ?_, ?_⟩
  · rintro rfl
    have hbit : BitVec.ofBool (data.getLsbD 0) = data.setWidth 1 := by ext i hi; simp [show i = 0 by omega]
    refine ⟨_, hstep, rfl, ?_⟩
    simp only [State.registerWord, writeCtrl, hbit]
    exact zero_append_setWidth_eq_and (m := 31) (n := 1) data
  · rintro rfl hidle
    exact ⟨_, hstep.trans (writeUnlessBusy_acknowledged hidle (writeLen data) rest), rfl,
      zero_append_setWidth_eq_and (m := 15) (n := 17) data⟩
  · rintro rfl hidle
    exact ⟨_, hstep.trans (writeUnlessBusy_acknowledged hidle (writePoly1 data) rest), rfl,
      zero_append_setWidth_eq_and (m := 4) (n := 28) data⟩
  · rintro rfl hidle
    exact ⟨_, hstep.trans (writeUnlessBusy_acknowledged hidle (writePoly2 data) rest), rfl,
      zero_append_setWidth_eq_and (m := 4) (n := 28) data⟩

/-- STATUS holds BUSY, DONE, ERR and OVR at their places (R27). -/
theorem toNat_statusWord (s : State) :
    s.statusWord.toNat = s.busy.toNat + 2 * s.done.toNat + 256 * s.ovr.toNat + 16 * (errorCode s.err).toNat := by
  refine (toNat_append_eq_add _ _).trans ?_
  simp only [toNat_append_eq_add, BitVec.toNat_ofBool, BitVec.ofNat_eq_ofNat, BitVec.toNat_ofNat, Nat.zero_mod]
  omega

theorem toNat_encState (s : State) : s.encState.toNat = 2 * s.r1.toNat + s.r2.toNat := by
  refine (toNat_append_eq_add _ _).trans ?_
  simp [Nat.mul_comm]

/-- A metric register holds VALID in bit 31 above the 17-bit metric (R35). -/
theorem toNat_pmWord (s : State) (k : TrellisState) :
    (s.pmWord k).toNat = (atState s.pmv k).toNat * 2 ^ 31 + (atState s.pmw k).toNat := by
  refine (toNat_append_eq_add _ _).trans ?_
  rw [toNat_append_eq_add]
  simp [Nat.mul_assoc]

/-- A register with reserved zeros above one field reads as the field. -/
theorem toNat_zero_append {m n : Nat} (x : BitVec n) : ((0 : BitVec m) ++ x).toNat = x.toNat := by
  rw [toNat_append_eq_add]
  simp

theorem Params.ok_iff (p : Params) : p.ok = true ↔ 1 ≤ p.nMax ∧ p.nMax ≤ 32768 := by
  simp [Params.ok]

/-- NMAX reads a frame capacity of the allowed range in full (R36). -/
theorem toNat_registerWord_nmax {s : State} (h : s.params.ok = true) : (s.registerWord .nmax).toNat = s.params.nMax := by
  have hfits : s.params.nMax < 2 ^ 17 := by
    have := (Params.ok_iff _).1 h
    omega
  exact (toNat_zero_append _).trans (Nat.mod_eq_of_lt hfits)

/-- Settles O47. -/
theorem readOnlyRegisterValues : Obligations.ReadOnlyRegisterValues := by
  intro s
  refine ⟨?_, toNat_zero_append _, (toNat_zero_append _).trans (toNat_encState s), toNat_zero_append _, toNat_pmWord s 0,
    toNat_pmWord s 1, toNat_pmWord s 2, toNat_pmWord s 3, toNat_registerWord_nmax, rfl, rfl, rfl⟩
  have hbusy : s.busy.toNat = if s.phase = .idle then 0 else 1 := by
    by_cases h : s.phase = .idle <;> simp [State.busy, h]
  refine (toNat_statusWord s).trans ?_
  rw [hbusy]
  cases s.err <;> rfl

/-- Settles O19: the successor's bits are the input bit and `R1` of its source. -/
theorem trellisPredecessors : Obligations.TrellisPredecessors := by
  intro p d b
  constructor
  · refine (toNat_append_eq_add _ _).trans ?_
    simp [trellisR1, Nat.mul_comm]
  · revert p d b
    decide

end Sys2Proof.Machine
end

section
/-! The statements that say which step may change which element (spec/10_state.md R19, R23 to R25, R28 to R31, R36), each a
case analysis of what the step did. -/

namespace Sys2Proof.Machine

/-- A command's issue moves the sequencer only for ENCODE and DECODE, and then to CHECK (R70). -/
theorem commandEffect_phase (i : Instr) (s : State) :
    (commandEffect i s).phase = s.phase ∨ ((i = .encode ∨ i = .decode) ∧ (commandEffect i s).phase = .check) := by
  cases i <;> simp [commandEffect]

/-- Settles O15: of the effects a step can have on an idle block, only the issue of ENCODE or DECODE moves PHASE. -/
theorem onlyStartLeavesIdle : Obligations.OnlyStartLeavesIdle := by
  intro s t hstep hidle hleaves
  cases stepEffect_of_step hstep with
  | @command data rest i hwrite _ hdecode =>
    obtain hsame | ⟨hstart, hcheck⟩ := commandEffect_phase i ((s.withInputs rest).respond .okay 0)
    · exact absurd (hsame.trans hidle) hleaves
    · obtain rfl | rfl := hstart
      · exact ⟨hcheck, data, rest, hwrite, .inl hdecode⟩
      · exact ⟨hcheck, data, rest, hwrite, .inr hdecode⟩
  | turn l _ heffect =>
    rw [heffect.eq_of_idle hidle] at hleaves
    exact absurd hidle hleaves
  | reset => exact absurd rfl hleaves
  | _ => exact absurd hidle hleaves

theorem params_of_step {s t : State} (h : step s = .next t) : t.params = s.params := by
  cases stepEffect_of_step h with
  | turn l _ heffect => simp [heffect.keeps]
  | _ => simp

/-- Settles O31. -/
theorem frameCapacityIsConstant : Obligations.FrameCapacityIsConstant :=
  ⟨fun _ _ => params_of_step, fun _ => toNat_registerWord_nmax⟩

/-- Settles O32: every effect but a reset and a write to the IN window keeps the buffer and the era its free bytes date from. -/
theorem onlyTheHostWritesIn : Obligations.OnlyTheHostWritesIn := by
  rintro s t hstep ⟨a, hchanged⟩
  have hsame : ¬ (t.inBuf = s.inBuf ∧ t.era = s.era) := fun ⟨hbuf, hera⟩ => hchanged (State.inByte_congr hbuf hera a)
  cases stepEffect_of_step hstep with
  | reset l hreset => exact .inl hreset
  | inWrite hwrite hidle => exact .inr ⟨hidle, _, _, _, _, hwrite⟩
  | turn l _ heffect => simp [heffect.keeps] at hsame
  | _ => simp at hsame

/-- A counter that is not the word 0 is not the number 0. -/
theorem toNat_ne_zero_of_ne {a : Count} (h : a ≠ 0) : a.toNat ≠ 0 := by bv_omega

/-- OUT's bytes depend on the buffer and the era only. -/
theorem State.outByte_congr {s t : State} (hb : t.outBuf = s.outBuf) (he : t.era = s.era) (i : Nat) :
    t.outByte i = s.outByte i := by
  simp [State.outByte, hb, he]

/-- The encoder step writes the pair at 2T and 2T+1 (R87). -/
theorem outByte_encoderStep (b : Bool) (s : State) (i : Nat) :
    (encoderStep b s).outByte i =
      if i = 2 * s.t.toNat + 1 then symbolOf (generatorOutput b s.encState s.tap2)
      else if i = 2 * s.t.toNat then symbolOf (generatorOutput b s.encState s.tap1)
      else s.outByte i := by
  rw [← State.outByte_writeOut, ← State.outByte_writeOut]
  rfl

/-- The traceback step writes at T-1 (R102). -/
theorem outByte_tracebackStep (s : State) (i : Nat) :
    (tracebackStep s).outByte i = if i = s.t.toNat - 1 then symbolOf (trellisR1 s.tbs) else s.outByte i := by
  rw [← State.outByte_writeOut]
  rfl

/-- A turn writes OUT only in an encoder step, at 2T and 2T+1, and in a traceback step, at T-1 (R25). -/
theorem TurnEffect.outByte_changed {s t : State} (h : TurnEffect s t) {i : Nat} (hchanged : t.outByte i ≠ s.outByte i) :
    (s.phase = .enc ∧ s.t.toNat < s.nstep.toNat ∧ (i = 2 * s.t.toNat ∨ i = 2 * s.t.toNat + 1)) ∨
    (s.phase = .tb ∧ s.t.toNat ≠ 0 ∧ i = s.t.toNat - 1) := by
  have hsame : ¬ (t.outBuf = s.outBuf ∧ t.era = s.era) := fun ⟨hbuf, hera⟩ => hchanged (State.outByte_congr hbuf hera i)
  cases h with
  | encodes hphase hlt =>
    rw [outByte_encoderStep] at hchanged
    have : i = 2 * s.t.toNat ∨ i = 2 * s.t.toNat + 1 := by grind
    exact .inl ⟨hphase, BitVec.lt_def.1 hlt, this⟩
  | tracesBack hphase hmore =>
    rw [outByte_tracebackStep] at hchanged
    have : i = s.t.toNat - 1 := by grind
    exact .inr ⟨hphase, toNat_ne_zero_of_ne hmore, this⟩
  | _ => simp at hsame

/-- Settles O33. -/
theorem onlyTheDatapathWritesOut : Obligations.OnlyTheDatapathWritesOut := by
  intro s t i hstep hchanged
  have hsame : ¬ (t.outBuf = s.outBuf ∧ t.era = s.era) := fun ⟨hbuf, hera⟩ => hchanged (State.outByte_congr hbuf hera i)
  cases stepEffect_of_step hstep with
  | reset l hreset => exact .inl hreset
  | turn l hturn heffect => exact .inr ((heffect.outByte_changed hchanged).imp (⟨hturn, ·⟩) (⟨hturn, ·⟩))
  | _ => simp at hsame

/-- The pending inputs are no part of what CHECK looks at (R74). -/
theorem passesCheck_withInputs (l : List HostInput) (s : State) : (s.withInputs l).passesCheck ↔ s.passesCheck := Iff.rfl

/-- A turn writes the taps only in a CHECK that passes, from the polynomial registers (R82). -/
theorem TurnEffect.taps_changed {s t : State} (h : TurnEffect s t) (hchanged : t.tap1 ≠ s.tap1 ∨ t.tap2 ≠ s.tap2) :
    s.phase = .check ∧ s.passesCheck ∧ t.tap1 = polyTaps s.poly1r ∧ t.tap2 = polyTaps s.poly2r := by
  cases h with
  | checkPassesEncode hphase _ hpass => exact ⟨hphase, hpass, rfl, rfl⟩
  | checkPassesDecode hphase _ hpass => exact ⟨hphase, hpass, rfl, rfl⟩
  | _ => simp at hchanged

/-- Settles O34. -/
theorem onlyCheckLatchesTaps : Obligations.OnlyCheckLatchesTaps := by
  intro s t hstep hchanged
  cases stepEffect_of_step hstep with
  | reset l hreset => exact .inl hreset
  | turn l hturn heffect =>
    obtain ⟨hphase, hpass, htaps⟩ := heffect.taps_changed hchanged
    exact .inr ⟨hturn, hphase, (passesCheck_withInputs l s).1 hpass, htaps⟩
  | _ => simp at hchanged

/-- Settles O35: a reset aside, each register has one effect that writes it. -/
theorem onlyTheHostWritesConfiguration : Obligations.OnlyTheHostWritesConfiguration := by
  intro s t hstep
  cases stepEffect_of_step hstep with
  | reset l hreset => simp [hreset]
  | ctrlWrite hwrite => simpa using fun _ => .inr ⟨_, _, hwrite⟩
  | lenWrite hwrite hidle => simpa using fun _ => .inr ⟨by simpa using hidle, _, _, hwrite⟩
  | poly1Write hwrite hidle => simpa using fun _ => .inr ⟨by simpa using hidle, _, _, hwrite⟩
  | poly2Write hwrite hidle => simpa using fun _ => .inr ⟨by simpa using hidle, _, _, hwrite⟩
  | turn l _ heffect => simp [heffect.keeps]
  | _ => simp

end Sys2Proof.Machine
end

section
/-! The flags (spec/10_state.md R28): what a turn and a command's issue do to them, and the causes of each change. -/

namespace Sys2Proof.Machine

/-- A turn keeps DONE, ERR and BUSY, or ends a command (R71). -/
theorem TurnEffect.keepsFlags_or_completes {s t : State} (h : TurnEffect s t) :
    (t.done = s.done ∧ t.err = s.err ∧ t.busy = s.busy) ∨
    (s.busy = true ∧ t.busy = false ∧ t.done = true ∧ t.opr = .none) := by
  cases h with
  | idle => exact .inl ⟨rfl, rfl, rfl⟩
  | checkFails hphase | encodeCompletes hphase | decodeCompletes hphase => exact .inr (by simp [hphase])
  | checkPassesEncode hphase | checkPassesDecode hphase | encodes hphase | selectsSurvivors hphase | entersSelect hphase
  | selectsBest hphase | tracesBack hphase => exact .inl (by simp [State.busy, hphase])

/-- Which commands change which flag when they are issued (R28). -/
theorem commandEffect_flagCauses (i : Instr) (s : State) :
    (s.ovr = false → (commandEffect i s).ovr = false) ∧
    (s.ovr = true → (commandEffect i s).ovr = false → i = .clear) ∧
    (s.done = false → (commandEffect i s).done = true → ∃ op, i = .illegal47 op ∨ i = .illegal8F op) ∧
    (s.done = true → (commandEffect i s).done = false → i = .encode ∨ i = .decode ∨ i = .clear) ∧
    ((commandEffect i s).err ≠ s.err → i ≠ .nop) ∧
    (s.busy = false → (commandEffect i s).busy = true → i = .encode ∨ i = .decode) := by
  cases i <;> simp +contextual [commandEffect]

/-- Settles O36: each effect of a step meets the causes; only a command and a completing turn change more than one flag. -/
theorem flagChangesHaveCauses : Obligations.FlagChangesHaveCauses := by
  intro s t hstep
  cases stepEffect_of_step hstep with
  | reset l hreset => simp [hreset]
  | dropped hwrite hdropped hbusy =>
    refine ⟨fun _ _ => ⟨hbusy, _, _, _, _, hwrite, hdropped⟩, ?_⟩
    simp +contextual [State.busy]
  | @command data rest i hwrite hidle hdecode =>
    obtain ⟨hovrRise, hovrFall, hdoneRise, hdoneFall, herr, hbusyRise⟩ :=
      commandEffect_flagCauses i ((s.withInputs rest).respond .okay 0)
    refine ⟨fun hlow hhigh => absurd ((hovrRise hlow).symm.trans hhigh) Bool.false_ne_true,
      fun hhigh hlow => .inr ⟨hidle, data, rest, hwrite, hovrFall hhigh hlow ▸ hdecode⟩, fun hlow hhigh => ?_,
      fun hhigh hlow => .inr ⟨hidle, data, rest, i, hwrite, hdecode, hdoneFall hhigh hlow⟩,
      fun hchanged => .inr (.inr ⟨hidle, data, rest, i, hwrite, hdecode, herr hchanged⟩), fun hlow hhigh => ?_,
      fun hbusy => by simp [hidle] at hbusy⟩
    · obtain ⟨op, hop⟩ := hdoneRise hlow hhigh
      exact .inr ⟨hidle, data, rest, op, hwrite, by rcases hop with rfl | rfl <;> simp [hdecode]⟩
    · exact ⟨data, rest, hwrite, by rcases hbusyRise hlow hhigh with rfl | rfl <;> simp [hdecode]⟩
  | turn l hturn heffect =>
    obtain ⟨hdone, herr, hbusy⟩ | ⟨hbusy, hidle, hdone, hopr⟩ := heffect.keepsFlags_or_completes
    · simp +contextual [hdone, herr, hbusy, heffect.keeps]
    · have hphase : s.phase ≠ .idle := (busy_eq_true_iff s).1 hbusy
      simp +contextual [hphase, hidle, hdone, hopr, hturn, heffect.keeps]
  | _ => simp +contextual [State.busy]

end Sys2Proof.Machine
end

section
/-! Every step keeps the invariant: what each phase relies on, state by state, then one lemma for each effect of a turn and of
the host (spec/10_state.md R20, R23, R27, R32, spec/43_viterbi.md R98, R99, R104). -/

namespace Sys2Proof.Machine

/-! ### What each phase relies on -/

theorem phaseSound_idle {s : State} (h : s.phase = .idle) : PhaseSound s ↔ s.opr = .none := by
  simp only [PhaseSound, h]

theorem phaseSound_check {s : State} (h : s.phase = .check) : PhaseSound s ↔ s.opr ≠ .none ∧ s.t = 0 := by
  simp only [PhaseSound, h]

theorem phaseSound_enc {s : State} (h : s.phase = .enc) :
    PhaseSound s ↔ s.opr = .encode ∧ FrameAccepted s ∧ s.lenr = s.nstep ∧ s.t.toNat ≤ s.nstep.toNat := by
  simp only [PhaseSound, h]

theorem phaseSound_acs {s : State} (h : s.phase = .acs) :
    PhaseSound s ↔ s.opr = .decode ∧ FrameAccepted s ∧ s.lenr.toNat = 2 * s.nstep.toNat ∧ s.t.toNat ≤ s.nstep.toNat ∧
      MetricsAfter s.t.toNat s ∧ traceWritten s.t.toNat s := by
  simp only [PhaseSound, h]

theorem phaseSound_sel {s : State} (h : s.phase = .sel) :
    PhaseSound s ↔ s.opr = .decode ∧ FrameAccepted s ∧ s.lenr.toNat = 2 * s.nstep.toNat ∧ s.t = s.nstep ∧
      MetricsAfter s.nstep.toNat s ∧ traceWritten s.nstep.toNat s := by
  simp only [PhaseSound, h]

theorem phaseSound_tb {s : State} (h : s.phase = .tb) :
    PhaseSound s ↔ s.opr = .decode ∧ FrameAccepted s ∧ s.lenr.toNat = 2 * s.nstep.toNat ∧ s.t.toNat ≤ s.nstep.toNat ∧
      MetricsAfter s.nstep.toNat s ∧ traceWritten s.nstep.toNat s := by
  simp only [PhaseSound, h]

/-- What a phase relies on is seen through what the host cannot disturb, whatever the level of `rst`. -/
theorem phaseSound_of_blockView {s t : State} (hview : t.blockView = { s.blockView with rst := t.rst }) (h : PhaseSound s) :
    PhaseSound t := by
  simp only [State.blockView, State.mk.injEq, and_true, true_and] at hview
  obtain ⟨-, -, htap1, htap2, hpmv, hpmw, htbm, -, -, hphase, hopr, ht, hnstep, -, -, hlenr, hpoly1, hpoly2, -, hin, -,
    hparams, hera⟩ := hview
  have hframe : FrameAccepted s → FrameAccepted t :=
    fun hf => frameAccepted_congr hf hin hera hpoly1 hpoly2 htap1 htap2 hlenr hnstep hparams
  have hmetrics : ∀ n, MetricsAfter n s → MetricsAfter n t := fun _ hm => metricsAfter_congr hm hpmv hpmw
  have htrace : ∀ n, traceWritten n s → traceWritten n t := fun _ hw => by rwa [traceWritten, htbm]
  unfold PhaseSound at h ⊢
  rw [hphase, hopr, ht, hnstep, hlenr]
  cases hp : s.phase <;> simp only [hp] at h ⊢
  case idle | check => exact h
  case enc =>
    obtain ⟨hop, hf, hcount⟩ := h
    exact ⟨hop, hframe hf, hcount⟩
  case acs | sel | tb =>
    obtain ⟨hop, hf, hlen, hcount, hm, hw⟩ := h
    exact ⟨hop, hframe hf, hlen, hcount, hmetrics _ hm, htrace _ hw⟩

/-! ### The invariant from its parts -/

/-- A change of what the host may disturb, or of the level of `rst`, keeps the invariant if the reset values still hold. -/
theorem State.Inv.of_blockView {s t : State} (h : s.Inv) (hview : t.blockView = { s.blockView with rst := t.rst })
    (hheld : t.rst = true → t = { t.resetBlock with era := t.era }) : t.Inv := by
  have hphase := phaseSound_of_blockView hview h.phase
  simp only [State.blockView, State.mk.injEq, and_true, true_and] at hview
  obtain ⟨-, -, -, -, hpmv, hpmw, htbm, -, -, hph, -, -, -, hdone, herr, -, -, -, houtlenr, hin, hout, hparams, -⟩ := hview
  exact
    { params := hparams ▸ h.params
      memories := memoriesSound_congr h.memories hparams hin hout htbm
      infZero := by rw [hpmv, hpmw]; exact h.infZero
      outlenFits := by rw [houtlenr, hparams]; exact h.outlenFits
      busyFlags := by simpa only [State.busy, hph, hdone, herr] using h.busyFlags
      phase := hphase
      heldInReset := hheld }

/-- An idle block out of reset meets the invariant if its memories, metrics and OUTLEN do. -/
theorem State.Inv.of_idle {t : State} (hparams : t.params.ok = true) (hmemories : MemoriesSound t)
    (hinf : ∀ k, atState t.pmv k = false → atState t.pmw k = 0) (houtlen : t.outlenr.toNat ≤ 2 * t.params.nMax)
    (hphase : t.phase = .idle) (hopr : t.opr = .none) (hrst : t.rst = false) : t.Inv where
  params := hparams
  memories := hmemories
  infZero := hinf
  outlenFits := houtlen
  busyFlags := fun hbusy => by simp [hphase] at hbusy
  phase := (phaseSound_idle hphase).2 hopr
  heldInReset := fun hheld => by simp [hrst] at hheld

/-- A turn that leaves the command running keeps the invariant if its memories, metrics and phase do. -/
theorem State.Inv.of_running {s t : State} (h : s.Inv) (hrst : s.rst = false) (hbusy : s.busy = true)
    (hkeeps : t.params = s.params ∧ t.rst = s.rst ∧ t.outlenr = s.outlenr ∧ t.done = s.done ∧ t.err = s.err)
    (hmemories : MemoriesSound t) (hinf : ∀ k, atState t.pmv k = false → atState t.pmw k = 0) (hphase : PhaseSound t) :
    t.Inv := by
  obtain ⟨hparams, hrst', houtlen, hdone, herr⟩ := hkeeps
  exact
    { params := hparams ▸ h.params
      memories := hmemories
      infZero := hinf
      outlenFits := by rw [houtlen, hparams]; exact h.outlenFits
      busyFlags := fun _ => by rw [hdone, herr]; exact h.busyFlags hbusy
      phase := hphase
      heldInReset := fun hheld => by simp [hrst', hrst] at hheld }

/-- A block held in reset is idle (R126). -/
theorem State.Inv.idle_of_rst {s : State} (h : s.Inv) (hrst : s.rst = true) : s.phase = .idle := by
  rw [h.heldInReset hrst]
  rfl

/-- Writing a symbol inside OUT keeps the memories sound (R25). -/
theorem memoriesSound_writeOut {s : State} (h : MemoriesSound s) {i : Nat} (hi : i < 2 * s.params.nMax) (b : Bool) :
    MemoriesSound (s.writeOut i (symbolOf b)) :=
  { h with
    outCanonical := Memory.insert_wf _ _ _ h.outCanonical
    outInside := sparseInsert_below _ _ _ _ h.outInside hi
    outBinary := Memory.insert_all _ _ _ _ h.outBinary (by simp) }

/-- Writing a word inside TBM keeps the memories sound (R21). -/
theorem memoriesSound_writeTbm {s : State} (h : MemoriesSound s) {i : Nat} (hi : i < s.params.nMax) (w : PerState Bool) :
    MemoriesSound (s.writeTbm i w) :=
  { h with
    tbmCanonical := sparseInsert_rising _ _ _ h.tbmCanonical
    tbmInside := sparseInsert_below _ _ _ _ h.tbmInside hi }

/-- Writing bytes inside IN keeps the memories sound (R24). -/
theorem memoriesSound_writeIn {s : State} (h : MemoriesSound s) {i n : Nat} (hi : i + n ≤ 2 * s.params.nMax) (data : Word) :
    MemoriesSound (writeIn i n data s) :=
  { h with
    inCanonical := Memory.insertBytes_wf _ _ _ h.inCanonical
    inInside := Memory.insertBytes_below _ _ _ _ h.inInside (by simpa using hi) }

/-! ### The block's turn -/

/-- T goes up by one while it is below NSTEP. -/
theorem toNat_add_one_of_lt {a b : Count} (h : a < b) : (a + 1).toNat = a.toNat + 1 := by bv_omega

/-- T lies below NSTEP when it is neither above nor equal. -/
theorem count_lt_of_le_of_ne {a b : Count} (hle : a.toNat ≤ b.toNat) (hne : a ≠ b) : a < b := by bv_omega

/-- T goes down by one while it is not 0. -/
theorem toNat_sub_one_of_ne {a : Count} (h : a ≠ 0) : (a - 1).toNat = a.toNat - 1 := by bv_omega

theorem State.Inv.raiseError {s : State} (h : s.Inv) (hrst : s.rst = false) (code : ErrCode) : (raiseError code s).Inv :=
  .of_idle h.params (memoriesSound_congr h.memories rfl rfl rfl rfl) h.infZero (Nat.zero_le _) rfl rfl hrst

/-- A frame that CHECK accepts holds binary symbols only (R75). -/
theorem frameBinary_of_passesCheck {s : State} (h : s.passesCheck) : s.frameBinary s.lenr.toNat = true := by
  obtain ⟨-, -, -, hsymbols⟩ := h
  simpa [State.frameBinary_iff, isBinarySymbol] using hsymbols

/-- Entering a datapath phase after CHECK has passed leaves an accepted frame (R74, R82). -/
theorem frameAccepted_of_passesCheck {s t : State} (h : s.passesCheck)
    (hlatch : t.tap1 = polyTaps s.poly1r ∧ t.tap2 = polyTaps s.poly2r)
    (hkeeps : t.inBuf = s.inBuf ∧ t.era = s.era ∧ t.poly1r = s.poly1r ∧ t.poly2r = s.poly2r ∧ t.lenr = s.lenr)
    (hsteps : t.nstep.toNat ≤ t.params.nMax) : FrameAccepted t := by
  obtain ⟨hin, hera, hpoly1, hpoly2, hlenr⟩ := hkeeps
  obtain ⟨htap1, htap2⟩ := hlatch
  have ⟨_, ⟨hvalid1, hvalid2⟩, _⟩ := h
  exact
    { poly1 := hpoly1 ▸ hvalid1
      poly2 := hpoly2 ▸ hvalid2
      taps1 := hpoly1 ▸ htap1
      taps2 := hpoly2 ▸ htap2
      symbols := by rw [hlenr, State.frameBinary_congr hin hera]; exact frameBinary_of_passesCheck h
      stepsFit := hsteps }

theorem State.Inv.enterEncode {s : State} (h : s.Inv) (hrst : s.rst = false) (hphase : s.phase = .check)
    (hopr : s.opr = .encode) (hpass : s.passesCheck) : (enterEncode s).Inv := by
  have ⟨⟨hfits, _⟩, _, _⟩ := hpass
  refine h.of_running hrst (by simp [hphase]) (by simp) (memoriesSound_congr h.memories rfl rfl rfl rfl) h.infZero ?_
  exact (phaseSound_enc rfl).2 ⟨hopr, frameAccepted_of_passesCheck hpass ⟨rfl, rfl⟩ ⟨rfl, rfl, rfl, rfl, rfl⟩
    (hfits hopr), rfl, Nat.zero_le _⟩

/-- NSTEP of a DECODE is half the even length (R74). -/
theorem toNat_enterDecode_nstep (s : State) : (enterDecode s).nstep.toNat = s.lenr.toNat / 2 := by
  simp [Nat.shiftRight_eq_div_pow]

theorem State.Inv.enterDecode {s : State} (h : s.Inv) (hrst : s.rst = false) (hphase : s.phase = .check)
    (hopr : s.opr = .decode) (hpass : s.passesCheck) : (enterDecode s).Inv := by
  have ⟨⟨_, hfits⟩, _, heven, _⟩ := hpass
  have hnstep := toNat_enterDecode_nstep s
  have hmetrics : MetricsAfter 0 (Machine.enterDecode s) := ⟨by simp [finiteAfter], by simp⟩
  refine h.of_running hrst (by simp [hphase]) (by simp) (memoriesSound_congr h.memories rfl rfl rfl rfl) (by simp) ?_
  refine (phaseSound_acs rfl).2 ⟨hopr, frameAccepted_of_passesCheck hpass ⟨rfl, rfl⟩ ⟨rfl, rfl, rfl, rfl, rfl⟩ ?_, ?_,
    Nat.zero_le _, hmetrics, fun i hi => absurd hi (Nat.not_lt_zero i)⟩
  · rw [hnstep]
    exact Nat.div_le_of_le_mul (hfits hopr)
  · rw [hnstep]
    have := heven hopr
    show s.lenr.toNat = _
    omega

theorem State.Inv.encoderStep {s : State} (h : s.Inv) (hrst : s.rst = false) (hphase : s.phase = .enc)
    (hlt : s.t < s.nstep) (hfits : s.t.toNat < s.params.nMax) (b : Bool) : (encoderStep b s).Inv := by
  obtain ⟨hopr, hframe, hlen, -⟩ := (phaseSound_enc hphase).1 h.phase
  have hmemories := memoriesSound_writeOut (memoriesSound_writeOut h.memories (i := 2 * s.t.toNat) (by omega)
    (generatorOutput b s.encState s.tap1)) (i := 2 * s.t.toNat + 1) (by simp; omega) (generatorOutput b s.encState s.tap2)
  refine h.of_running hrst (by simp [hphase]) (by simp) (memoriesSound_congr hmemories rfl rfl rfl rfl) h.infZero ?_
  refine (phaseSound_enc (s := Machine.encoderStep b s) hphase).2
    ⟨hopr, frameAccepted_congr hframe rfl rfl rfl rfl rfl rfl rfl rfl rfl, hlen, ?_⟩
  show (s.t + 1).toNat ≤ s.nstep.toNat
  rw [toNat_add_one_of_lt hlt]
  exact BitVec.lt_def.1 hlt

/-- OUTLEN after a completion: 2*NSTEP for ENCODE, NSTEP for DECODE (R76). -/
theorem toNat_completeCommand_outlenr_le (s : State) : (completeCommand s).outlenr.toNat ≤ 2 * s.nstep.toNat := by
  simp only [completeCommand_writes]
  split
  · exact BitVec.toNat_mul _ _ ▸ Nat.mod_le _ _
  · omega

/-- OUTLEN after a completion fits the OUT buffer (R32). -/
theorem State.Inv.completeCommand {s : State} (h : s.Inv) (hrst : s.rst = false) (hframe : FrameAccepted s) :
    (completeCommand s).Inv := by
  have houtlen := (toNat_completeCommand_outlenr_le s).trans (Nat.mul_le_mul_left 2 hframe.stepsFit)
  exact .of_idle h.params (memoriesSound_congr h.memories rfl rfl rfl rfl) h.infZero houtlen rfl rfl hrst

/-- An add-compare-select step takes the metrics from `n` steps to `n + 1`, when the new ones fit their entries (R98, R99). -/
theorem metricsAfter_acsStep {s : State} {n : Nat} (hmetrics : MetricsAfter n s) (r0 r1 : Bool) :
    MetricsAfter (n + 1) (acsStep r0 r1 s) where
  finite := fun k => by simpa using (acsDestination_after hmetrics r0 r1 k).1
  bounded := fun k => by
    simp only [acsStep_writes, atState_perState, BitVec.toNat_ofNat]
    exact (Nat.mod_le _ _).trans (acsDestination_after hmetrics r0 r1 k).2

/-- A destination that stays INF gets the value 0 (R20). -/
theorem infZero_acsStep (r0 r1 : Bool) (s : State) (k : TrellisState) (h : atState (acsStep r0 r1 s).pmv k = false) :
    atState (acsStep r0 r1 s).pmw k = 0 := by
  simp only [acsStep_writes, atState_perState, Option.isSome_eq_false_iff, Option.isNone_iff_eq_none] at h ⊢
  simp [h]

theorem traceWritten_acsStep {s : State} (h : traceWritten s.t.toNat s) (r0 r1 : Bool) :
    traceWritten (s.t.toNat + 1) (acsStep r0 r1 s) := by
  intro i hi
  simp only [acsStep_writes, sparseLookup_insert]
  split
  · rfl
  · exact h i (by omega)

theorem State.Inv.acsStep {s : State} (h : s.Inv) (hrst : s.rst = false) (hphase : s.phase = .acs)
    (hlt : s.t < s.nstep) (hfits : s.t.toNat < s.params.nMax) (r0 r1 : Bool) : (acsStep r0 r1 s).Inv := by
  obtain ⟨hopr, hframe, hlen, -, hmetrics, htrace⟩ := (phaseSound_acs hphase).1 h.phase
  have hmemories := memoriesSound_writeTbm h.memories hfits (perState fun d => (acsDestination s r0 r1 d).2)
  have hcount : (Machine.acsStep r0 r1 s).t.toNat = s.t.toNat + 1 := toNat_add_one_of_lt hlt
  refine h.of_running hrst (by simp [hphase]) (by simp) (memoriesSound_congr hmemories rfl rfl rfl rfl)
    (infZero_acsStep r0 r1 s) ?_
  refine (phaseSound_acs (s := Machine.acsStep r0 r1 s) hphase).2
    ⟨hopr, frameAccepted_congr hframe rfl rfl rfl rfl rfl rfl rfl rfl rfl, hlen, ?_, ?_, ?_⟩ <;> rw [hcount]
  · exact BitVec.lt_def.1 hlt
  · exact metricsAfter_acsStep hmetrics r0 r1
  · exact traceWritten_acsStep htrace r0 r1

theorem State.Inv.enterSelect {s : State} (h : s.Inv) (hrst : s.rst = false) (hphase : s.phase = .acs)
    (hlast : s.t = s.nstep) : (enterSelect s).Inv := by
  obtain ⟨hopr, hframe, hlen, -, hmetrics, htrace⟩ := (phaseSound_acs hphase).1 h.phase
  rw [hlast] at hmetrics htrace
  refine h.of_running hrst (by simp [hphase]) (by simp) (memoriesSound_congr h.memories rfl rfl rfl rfl) h.infZero ?_
  exact (phaseSound_sel rfl).2 ⟨hopr, frameAccepted_congr hframe rfl rfl rfl rfl rfl rfl rfl rfl rfl, hlen, hlast,
    metricsAfter_congr hmetrics rfl rfl, htrace⟩

theorem State.Inv.selectBest {s : State} (h : s.Inv) (hrst : s.rst = false) (hphase : s.phase = .sel)
    (k : TrellisState) : (selectBest k s).Inv := by
  obtain ⟨hopr, hframe, hlen, hlast, hmetrics, htrace⟩ := (phaseSound_sel hphase).1 h.phase
  refine h.of_running hrst (by simp [hphase]) (by simp) (memoriesSound_congr h.memories rfl rfl rfl rfl) h.infZero ?_
  exact (phaseSound_tb rfl).2 ⟨hopr, frameAccepted_congr hframe rfl rfl rfl rfl rfl rfl rfl rfl rfl, hlen,
    (congrArg BitVec.toNat hlast).le, metricsAfter_congr hmetrics rfl rfl, htrace⟩

theorem State.Inv.tracebackStep {s : State} (h : s.Inv) (hrst : s.rst = false) (hphase : s.phase = .tb)
    (hmore : s.t ≠ 0) (hfits : s.t.toNat ≤ s.params.nMax) : (tracebackStep s).Inv := by
  obtain ⟨hopr, hframe, hlen, hcount, hmetrics, htrace⟩ := (phaseSound_tb hphase).1 h.phase
  have hrange := (Params.ok_iff _).1 h.params
  have hmemories := memoriesSound_writeOut h.memories (i := s.t.toNat - 1) (by omega) (trellisR1 s.tbs)
  refine h.of_running hrst (by simp [hphase]) (by simp) (memoriesSound_congr hmemories rfl rfl rfl rfl) h.infZero ?_
  refine (phaseSound_tb (s := Machine.tracebackStep s) hphase).2
    ⟨hopr, frameAccepted_congr hframe rfl rfl rfl rfl rfl rfl rfl rfl rfl, hlen, ?_, metricsAfter_congr hmetrics rfl rfl, htrace⟩
  show (s.t - 1).toNat ≤ s.nstep.toNat
  rw [toNat_sub_one_of_ne hmore]
  omega

theorem TurnEffect.keepsInv {s t : State} (h : TurnEffect s t) (hinv : s.Inv) (hrst : s.rst = false) : t.Inv := by
  cases h with
  | idle => exact hinv
  | checkFails => exact hinv.raiseError hrst _
  | checkPassesEncode hphase hopr hpass => exact hinv.enterEncode hrst hphase hopr hpass
  | checkPassesDecode hphase hopr hpass => exact hinv.enterDecode hrst hphase hopr hpass
  | encodes hphase hlt hfits => exact hinv.encoderStep hrst hphase hlt hfits _
  | encodeCompletes hphase =>
    obtain ⟨-, hframe, -⟩ := (phaseSound_enc hphase).1 hinv.phase
    exact hinv.completeCommand hrst hframe
  | selectsSurvivors hphase hlt hfits => exact hinv.acsStep hrst hphase hlt hfits _ _
  | entersSelect hphase hlast => exact hinv.enterSelect hrst hphase hlast
  | selectsBest hphase => exact hinv.selectBest hrst hphase _
  | tracesBack hphase hmore hfits => exact hinv.tracebackStep hrst hphase hmore hfits
  | decodeCompletes hphase =>
    obtain ⟨-, hframe, -⟩ := (phaseSound_tb hphase).1 hinv.phase
    exact hinv.completeCommand hrst hframe

/-! ### The host's side -/

/-- An answer to the host changes no element of the block, held in reset or not. -/
theorem State.Inv.hostSide {s : State} (h : s.Inv) (l : List HostInput) (resp : Option BusResponse) (draws : Nat) :
    State.Inv { s with inputs := l, resp := resp, draws := draws } :=
  h.of_blockView rfl fun hrst =>
    congrArg (fun u : State => { u with inputs := l, resp := resp, draws := draws }) (h.heldInReset hrst)

theorem State.Inv.assertReset {s : State} (hparams : s.params.ok = true) : (assertReset s).Inv where
  params := hparams
  memories := ⟨rfl, rfl, rfl, rfl, rfl, rfl, rfl⟩
  infZero := by simp [atState]
  outlenFits := Nat.zero_le _
  busyFlags := fun _ => ⟨rfl, rfl⟩
  phase := rfl
  heldInReset := fun _ => rfl

theorem State.Inv.commandEffect {s : State} (h : s.Inv) (hrst : s.rst = false) (hidle : s.phase = .idle) (i : Instr) :
    (commandEffect i s).Inv := by
  have hopr := (phaseSound_idle hidle).1 h.phase
  have hmemories : MemoriesSound (Machine.commandEffect i s) :=
    memoriesSound_congr h.memories (by simp) (by simp) (by simp) (by simp)
  cases i with
  | nop => exact h
  | encode | decode =>
    exact
      { params := h.params
        memories := hmemories
        infZero := h.infZero
        outlenFits := h.outlenFits
        busyFlags := fun _ => ⟨rfl, rfl⟩
        phase := (phaseSound_check rfl).2 ⟨nofun, rfl⟩
        heldInReset := fun hheld => absurd (hheld : s.rst = true) (by simp [hrst]) }
  | clear => exact .of_idle h.params hmemories (by simp [Machine.commandEffect]) (Nat.zero_le _) hidle hopr hrst
  | illegal47 | illegal8F => exact .of_idle h.params hmemories h.infZero (Nat.zero_le _) hidle hopr hrst

/-- Settles O29: each effect of a step keeps the invariant. -/
theorem stepKeepsInvariant : Obligations.StepKeepsInvariant := by
  intro s t hinv hstep
  cases stepEffect_of_step hstep with
  | reset l => exact .assertReset hinv.params
  | release l => exact hinv.of_blockView rfl nofun
  | answer l status data => exact hinv.hostSide l _ s.draws
  | answerFree l n => exact hinv.hostSide l _ _
  | @dropped _ _ _ rest hwrite | @ctrlWrite _ rest hwrite =>
    exact hinv.of_blockView rfl fun hheld => absurd (hheld : s.rst = true) (by simp [hwrite.1])
  | @command _ rest i hwrite hidle =>
    exact (hinv.hostSide rest _ s.draws).commandEffect hwrite.1 ((busy_eq_false_iff s).1 hidle) i
  | lenWrite hwrite hidle | poly1Write hwrite hidle | poly2Write hwrite hidle =>
    have hphase := (busy_eq_false_iff s).1 hidle
    exact .of_idle hinv.params (memoriesSound_congr hinv.memories rfl rfl rfl rfl) hinv.infZero hinv.outlenFits hphase
      ((phaseSound_idle hphase).1 hinv.phase) hwrite.1
  | @inWrite i size data rest hwrite hidle =>
    have hphase := (busy_eq_false_iff s).1 hidle
    obtain ⟨hrst, a, -, -, rfl, htarget⟩ := hwrite
    have hmemories := memoriesSound_writeIn hinv.memories (inside_of_accessTarget_input htarget) data
    exact .of_idle hinv.params (memoriesSound_congr hmemories rfl rfl rfl rfl) hinv.infZero hinv.outlenFits hphase
      ((phaseSound_idle hphase).1 hinv.phase) hrst
  | turn l hturn heffect => exact heffect.keepsInv (hinv.hostSide l s.resp s.draws) hturn.1

end Sys2Proof.Machine
end

section
/-! Progress of a command left alone: from a state of the invariant the sequencer always has a step (spec/60_exceptions.md R113),
and each step brings the command nearer to its completion (spec/40_commands.md R71). -/

namespace Sys2Proof.Machine

theorem mem_trellisStates (k : TrellisState) : k ∈ trellisStates := by
  revert k
  decide

/-- With a finite metric there is a best state (R101). -/
theorem exists_bestState {m : PerState (Option Nat)} {k₀ : TrellisState} (h : (atState m k₀).isSome = true) :
    ∃ k, bestState m = some k := by
  obtain ⟨k, hk, hmin⟩ := WellFounded.has_min (measure fun k => (atState m k).getD 0).wf
    {k | (atState m k).isSome = true} ⟨k₀, h⟩
  obtain ⟨v, hv⟩ := Option.isSome_iff_exists.1 hk
  refine Option.isSome_iff_exists.1 (List.find?_isSome.2 ⟨k, mem_trellisStates k, ?_⟩)
  simp only [hv, List.all_eq_true]
  intro j _
  cases hj : atState m j with
  | none => rfl
  | some w =>
    have hle : ¬ (atState m j).getD 0 < (atState m k).getD 0 := hmin j (by simp [hj])
    simpa [hj, hv] using hle

/-- State 00 is finite after any number of steps (R98). -/
theorem finiteAfter_zero (n : Nat) : finiteAfter n 0 = true := by
  match n with
  | 0 => rfl
  | 1 => rfl
  | n + 2 => rfl

theorem FrameAccepted.inBit {s : State} (h : FrameAccepted s) {i : Nat} (hi : i < s.lenr.toNat) : ∃ b, s.inBit i = some b :=
  State.inBit_of_frameBinary h.symbols hi

/-- New metrics fit their 17-bit entries, since a metric after `n` steps is at most 2*n (R99). -/
theorem metricFits_acsDestination {s : State} {n : Nat} (hmetrics : MetricsAfter n s) (hn : n < 32768) (r0 r1 : Bool)
    (d : TrellisState) : metricFits (acsDestination s r0 r1 d).1 = true := by
  have hbound := (acsDestination_after hmetrics r0 r1 d).2
  cases hc : (acsDestination s r0 r1 d).1 with
  | none => rfl
  | some c =>
    simp only [hc, Option.getD_some] at hbound
    simp only [metricFits, decide_eq_true_eq]
    omega

theorem encPhase_next {s : State} (h : s.Inv) (hphase : s.phase = .enc) : ∃ t, encPhase s = .next t := by
  obtain ⟨-, hframe, hlen, hcount⟩ := (phaseSound_enc hphase).1 h.phase
  by_cases hlast : s.t = s.nstep
  · exact ⟨_, if_pos hlast⟩
  · have hlt : s.t < s.nstep := count_lt_of_le_of_ne hcount hlast
    have hlt' := BitVec.lt_def.1 hlt
    obtain ⟨b, hb⟩ := hframe.inBit (i := s.t.toNat) (by rw [hlen]; exact hlt')
    have hfits : ¬ s.params.nMax ≤ s.t.toNat := by have := hframe.stepsFit; omega
    exact ⟨encoderStep b s, by simp [encPhase, hlast, hlt, hfits, hb]⟩

theorem acsPhase_next {s : State} (h : s.Inv) (hphase : s.phase = .acs) : ∃ t, acsPhase s = .next t := by
  obtain ⟨-, hframe, hlen, hcount, hmetrics, -⟩ := (phaseSound_acs hphase).1 h.phase
  by_cases hlast : s.t = s.nstep
  · exact ⟨_, if_pos hlast⟩
  · have hlt : s.t < s.nstep := count_lt_of_le_of_ne hcount hlast
    have hlt' := BitVec.lt_def.1 hlt
    obtain ⟨r0, h0⟩ := hframe.inBit (i := 2 * s.t.toNat) (by omega)
    obtain ⟨r1, h1⟩ := hframe.inBit (i := 2 * s.t.toNat + 1) (by omega)
    have hfits : s.t.toNat < s.params.nMax := by have := hframe.stepsFit; omega
    have hrange := (Params.ok_iff _).1 h.params
    have hmetric := metricFits_acsDestination hmetrics (by omega) r0 r1
    exact ⟨acsStep r0 r1 s, by simp [acsPhase, hlast, hlt, Nat.not_le.2 hfits, h0, h1, hmetric]⟩

theorem selPhase_next {s : State} (h : s.Inv) (hphase : s.phase = .sel) : ∃ t, selPhase s = .next t := by
  obtain ⟨-, -, -, -, hmetrics, -⟩ := (phaseSound_sel hphase).1 h.phase
  have hfinite : (atState (perState s.metric) 0).isSome = true := by
    simpa [State.metric, hmetrics.finite] using finiteAfter_zero s.nstep.toNat
  obtain ⟨k, hk⟩ := exists_bestState hfinite
  exact ⟨selectBest k s, by simp [selPhase, hk]⟩

theorem tbPhase_next {s : State} (h : s.Inv) (hphase : s.phase = .tb) : ∃ t, tbPhase s = .next t := by
  obtain ⟨-, hframe, -, hcount, -⟩ := (phaseSound_tb hphase).1 h.phase
  by_cases hzero : s.t = 0
  · exact ⟨_, if_pos hzero⟩
  · have hfits : ¬ s.params.nMax < s.t.toNat := by have := hframe.stepsFit; omega
    exact ⟨tracebackStep s, (if_neg hzero).trans (if_neg hfits)⟩

theorem checkPhase_next {s : State} (h : s.Inv) (hphase : s.phase = .check) : ∃ t, checkPhase s = .next t := by
  obtain ⟨hopr, -⟩ := (phaseSound_check hphase).1 h.phase
  unfold checkPhase
  cases hop : s.opr with
  | none => exact absurd hop hopr
  | encode | decode => cases checkError s <;> exact ⟨_, rfl⟩

/-- From every state of the invariant the sequencer's turn answers a next state (R113). -/
theorem State.Inv.sequencerStep_next {s : State} (h : s.Inv) : ∃ t, sequencerStep s = .next t := by
  unfold sequencerStep
  cases hphase : s.phase with
  | idle => exact ⟨s, rfl⟩
  | check => exact checkPhase_next h hphase
  | enc => exact encPhase_next h hphase
  | acs => exact acsPhase_next h hphase
  | sel => exact selPhase_next h hphase
  | tb => exact tbPhase_next h hphase

/-- A block that the host leaves alone. -/
structure State.Undisturbed (s : State) : Prop where
  inv : s.Inv
  rst : s.rst = false
  inputs : s.inputs = []

theorem State.Started.undisturbed {s : State} (h : s.Started) : s.Undisturbed := ⟨h.inv, h.rst, h.inputs⟩

/-- Left alone, every step is the sequencer's. -/
theorem State.Undisturbed.step_eq {s : State} (h : s.Undisturbed) : step s = sequencerStep s := by
  simp [step, h.inputs, blockTurn, h.rst]

/-- Left alone, the block goes on: its step answers a state that is again left alone. -/
theorem State.Undisturbed.next {s : State} (h : s.Undisturbed) :
    ∃ t, sequencerStep s = .next t ∧ TurnEffect s t ∧ t.Undisturbed := by
  obtain ⟨t, ht⟩ := h.inv.sequencerStep_next
  have heffect := turnEffect_of_sequencerStep ht
  have hkeeps := heffect.keeps
  exact ⟨t, ht, heffect, heffect.keepsInv h.inv h.rst, by simp [hkeeps, h.rst], by simp [hkeeps, h.inputs]⟩

/-- A bound on the sequencer steps a command still takes (R71). -/
def State.stepsLeft (s : State) : Nat :=
  match s.phase with
  | .idle => 0
  | .check => s.lenr.toNat + 4
  | .enc => s.nstep.toNat - s.t.toNat + 1
  | .acs => s.nstep.toNat - s.t.toNat + s.nstep.toNat + 3
  | .sel => s.nstep.toNat + 2
  | .tb => s.t.toNat + 1

/-- Every turn while BUSY brings the command nearer to its completion. -/
theorem TurnEffect.stepsLeft_lt {s t : State} (h : TurnEffect s t) (hinv : s.Inv) (hbusy : s.phase ≠ .idle) :
    t.stepsLeft < s.stepsLeft := by
  cases h with
  | idle hphase => exact absurd hphase hbusy
  | checkFails hphase | encodeCompletes hphase | decodeCompletes hphase => simp [State.stepsLeft, hphase]
  | checkPassesEncode hphase => simp [State.stepsLeft, hphase]
  | checkPassesDecode hphase =>
    have hnstep := toNat_enterDecode_nstep s
    simp only [State.stepsLeft, hphase, enterDecode_writes] at hnstep ⊢
    omega
  | encodes hphase hlt | selectsSurvivors hphase hlt =>
    have hlt' := BitVec.lt_def.1 hlt
    simp only [State.stepsLeft, hphase, encoderStep_writes, encoderStep_keeps, acsStep_writes, acsStep_keeps,
      toNat_add_one_of_lt hlt]
    omega
  | entersSelect hphase hlast => simp [State.stepsLeft, hphase, hlast]
  | selectsBest hphase =>
    obtain ⟨-, -, -, hlast, -⟩ := (phaseSound_sel hphase).1 hinv.phase
    simp [State.stepsLeft, hphase, hlast]
  | tracesBack hphase hmore =>
    have hpos := toNat_ne_zero_of_ne hmore
    simp only [State.stepsLeft, hphase, tracebackStep_writes, tracebackStep_keeps, toNat_sub_one_of_ne hmore]
    omega

end Sys2Proof.Machine
end

section
/-! Noninterference (spec/10_state.md R39): two blocks that start the same command on the same frame stay in lockstep, agreeing
on everything the command has computed so far. -/

namespace Sys2Proof.Machine

/-- What R39 lets a command's result depend on, with the frame capacity: the polynomials, the length and the frame. -/
structure SameOperands (s s' : State) : Prop where
  nMax : s.params.nMax = s'.params.nMax
  poly1 : s.poly1r = s'.poly1r
  poly2 : s.poly2r = s'.poly2r
  lenr : s.lenr = s'.lenr
  frame : ∀ i < s.lenr.toNat, s.inByte i = s'.inByte i

/-- The operands are written by the host only, so a turn of each block keeps them the same. -/
theorem SameOperands.turn {s s' t t' : State} (h : SameOperands s s') (he : TurnEffect s t) (he' : TurnEffect s' t') :
    SameOperands t t' := by
  obtain ⟨-, -, hlenr, hpoly1, hpoly2, hin, hparams, -, -, -, hera, -⟩ := he.keeps
  obtain ⟨-, -, hlenr', hpoly1', hpoly2', hin', hparams', -, -, -, hera', -⟩ := he'.keeps
  constructor
  · rw [hparams, hparams', h.nMax]
  · rw [hpoly1, hpoly1', h.poly1]
  · rw [hpoly2, hpoly2', h.poly2]
  · rw [hlenr, hlenr', h.lenr]
  · intro i hi
    rw [State.inByte_congr hin hera, State.inByte_congr hin' hera', h.frame i (hlenr ▸ hi)]

/-- Two commands with the same operation in step with each other: what each phase has computed so far is the same. -/
inductive Lockstep (op : Operation) (s s' : State) : Prop
  | check (hphase : s.phase = .check ∧ s'.phase = .check) (hopr : s.opr = op ∧ s'.opr = op)
  | enc (hphase : s.phase = .enc ∧ s'.phase = .enc) (hop : op = .encode) (hcount : s.t = s'.t ∧ s.nstep = s'.nstep)
      (hregister : s.r1 = s'.r1 ∧ s.r2 = s'.r2) (hout : ∀ i < 2 * s.t.toNat, s.outByte i = s'.outByte i)
  | acs (hphase : s.phase = .acs ∧ s'.phase = .acs) (hop : op = .decode) (hcount : s.t = s'.t ∧ s.nstep = s'.nstep)
      (hmetrics : s.pmv = s'.pmv ∧ s.pmw = s'.pmw) (htrace : ∀ i < s.t.toNat, s.tbmWord i = s'.tbmWord i)
  | sel (hphase : s.phase = .sel ∧ s'.phase = .sel) (hop : op = .decode) (hcount : s.t = s'.t ∧ s.nstep = s'.nstep)
      (hmetrics : s.pmv = s'.pmv ∧ s.pmw = s'.pmw) (htrace : ∀ i < s.nstep.toNat, s.tbmWord i = s'.tbmWord i)
  | tb (hphase : s.phase = .tb ∧ s'.phase = .tb) (hop : op = .decode) (hcount : s.t = s'.t ∧ s.nstep = s'.nstep)
      (hmetrics : s.pmv = s'.pmv ∧ s.pmw = s'.pmw) (hbest : s.bestr = s'.bestr) (hpointer : s.tbs = s'.tbs)
      (htrace : ∀ i < s.nstep.toNat, s.tbmWord i = s'.tbmWord i)
      (hout : ∀ i, s.t.toNat ≤ i → i < s.nstep.toNat → s.outByte i = s'.outByte i)
  | finished (hphase : s.phase = .idle ∧ s'.phase = .idle) (hdone : s.done = true ∧ s'.done = true)
      (herr : s.err = s'.err) (houtlen : s.outlenr = s'.outlenr)
      (hout : ∀ i < s.outlenr.toNat, s.outByte i = s'.outByte i)
      (hencode : s.err = .ok → op = .encode → s.r1 = s'.r1 ∧ s.r2 = s'.r2)
      (hdecode : s.err = .ok → op = .decode → s.bestr = s'.bestr ∧ s.pmv = s'.pmv ∧ s.pmw = s'.pmw)

/-! ### CHECK -/

theorem SameOperands.frameBinary {s s' : State} (h : SameOperands s s') {n : Nat} (hn : n ≤ s.lenr.toNat) :
    s.frameBinary n = s'.frameBinary n := by
  rw [Bool.eq_iff_iff, State.frameBinary_iff, State.frameBinary_iff]
  exact forall₂_congr fun i hi => by rw [h.frame i (by omega)]

/-- CHECK's verdict depends on the operation and the operands only (R74). -/
theorem SameOperands.checkError {s s' : State} (h : SameOperands s s') (hopr : s.opr = s'.opr) :
    checkError s = checkError s' := by
  unfold Machine.checkError
  rw [h.frameBinary le_rfl, hopr, h.nMax, h.lenr, h.poly1, h.poly2]

/-- CHECK never reports success as an error (R74). -/
theorem checkError_ne_ok {s : State} {code : ErrCode} (h : Machine.checkError s = some code) : code ≠ .ok := by
  unfold Machine.checkError at h
  split_ifs at h <;> cases h <;> decide

theorem checkPhase_of_error {s : State} {code : ErrCode} (hopr : s.opr ≠ .none) (herr : Machine.checkError s = some code) :
    checkPhase s = .next (raiseError code s) := by
  unfold checkPhase
  cases hop : s.opr with
  | none => exact absurd hop hopr
  | encode | decode => simp only [herr]

theorem checkPhase_encode {s : State} (hopr : s.opr = .encode) (hok : Machine.checkError s = none) :
    checkPhase s = .next (enterEncode s) := by
  simp only [checkPhase, hopr, hok]

theorem checkPhase_decode {s : State} (hopr : s.opr = .decode) (hok : Machine.checkError s = none) :
    checkPhase s = .next (enterDecode s) := by
  simp only [checkPhase, hopr, hok]

theorem lockstep_checkPhase {op : Operation} {s s' t t' : State} (hsame : SameOperands s s') (hop : op ≠ .none)
    (hopr : s.opr = op ∧ s'.opr = op) (h : checkPhase s = .next t) (h' : checkPhase s' = .next t') : Lockstep op t t' := by
  have hverdict := hsame.checkError (hopr.1.trans hopr.2.symm)
  cases herr : checkError s with
  | some code =>
    rw [checkPhase_of_error (hopr.1 ▸ hop) herr] at h
    rw [checkPhase_of_error (hopr.2 ▸ hop) (hverdict ▸ herr)] at h'
    cases h; cases h'
    exact .finished ⟨rfl, rfl⟩ ⟨rfl, rfl⟩ rfl rfl nofun (fun hok => absurd hok (checkError_ne_ok herr))
      (fun hok => absurd hok (checkError_ne_ok herr))
  | none =>
    cases op with
    | none => exact absurd rfl hop
    | encode =>
      rw [checkPhase_encode hopr.1 herr] at h
      rw [checkPhase_encode hopr.2 (hverdict ▸ herr)] at h'
      cases h; cases h'
      exact .enc ⟨rfl, rfl⟩ rfl ⟨rfl, hsame.lenr⟩ ⟨rfl, rfl⟩ nofun
    | decode =>
      rw [checkPhase_decode hopr.1 herr] at h
      rw [checkPhase_decode hopr.2 (hverdict ▸ herr)] at h'
      cases h; cases h'
      exact .acs ⟨rfl, rfl⟩ rfl ⟨rfl, by simp [hsame.lenr]⟩ ⟨rfl, rfl⟩ nofun

/-! ### The encoder -/

/-- A symbol of the frame is the same in both blocks. -/
theorem SameOperands.inBit {s s' : State} (h : SameOperands s s') {i : Nat} (hi : i < s.lenr.toNat) :
    s.inBit i = s'.inBit i := by
  rw [State.inBit, State.inBit, h.frame i hi]

/-- The latched taps of an accepted frame are the operands' (R82). -/
theorem SameOperands.taps {s s' : State} (h : SameOperands s s') (hframe : FrameAccepted s) (hframe' : FrameAccepted s') :
    s.tap1 = s'.tap1 ∧ s.tap2 = s'.tap2 := by
  rw [hframe.taps1, hframe.taps2, hframe'.taps1, hframe'.taps2, h.poly1, h.poly2]
  exact ⟨rfl, rfl⟩

theorem lockstep_encPhase {s s' t t' : State} (hinv : s.Inv) (hinv' : s'.Inv) (hsame : SameOperands s s')
    (hphase : s.phase = .enc ∧ s'.phase = .enc) (hcount : s.t = s'.t ∧ s.nstep = s'.nstep)
    (hregister : s.r1 = s'.r1 ∧ s.r2 = s'.r2) (hout : ∀ i < 2 * s.t.toNat, s.outByte i = s'.outByte i)
    (h : encPhase s = .next t) (h' : encPhase s' = .next t') : Lockstep .encode t t' := by
  obtain ⟨hopr, hframe, hlen, -⟩ := (phaseSound_enc hphase.1).1 hinv.phase
  obtain ⟨hopr', hframe', -, -⟩ := (phaseSound_enc hphase.2).1 hinv'.phase
  obtain ⟨htap1, htap2⟩ := hsame.taps hframe hframe'
  obtain ⟨ht, hn⟩ := hcount
  obtain ⟨hlast, rfl⟩ | ⟨b, hlt, -, hbit, rfl⟩ := encPhase_cases h <;>
    obtain ⟨hlast', rfl⟩ | ⟨b', hlt', -, hbit', rfl⟩ := encPhase_cases h'
  · refine .finished ⟨rfl, rfl⟩ ⟨rfl, rfl⟩ rfl (by simp [hopr, hopr', hn]) (fun i hi => hout i ?_) (fun _ _ => hregister) nofun
    rw [hlast]
    exact hi.trans_le (toNat_completeCommand_outlenr_le s)
  · exact absurd (ht ▸ hn ▸ hlast) (BitVec.ne_of_lt hlt')
  · exact absurd (ht ▸ hn ▸ hlast') (BitVec.ne_of_lt hlt)
  · have hb : b = b' := by
      rw [hsame.inBit (by rw [hlen]; exact BitVec.lt_def.1 hlt), ht, hbit'] at hbit
      exact (Option.some.inj hbit).symm
    have hstate : s.encState = s'.encState := by rw [State.encState, State.encState, hregister.1, hregister.2]
    refine .enc hphase rfl ⟨congrArg (· + 1) ht, hn⟩ ⟨hb, hregister.1⟩ fun i hi => ?_
    have hi' : i < 2 * (s.t.toNat + 1) := toNat_add_one_of_lt hlt ▸ hi
    rw [outByte_encoderStep, outByte_encoderStep, hb, hstate, htap1, htap2, ← ht]
    split
    · rfl
    split
    · rfl
    exact hout i (by omega)

/-! ### The decoder -/

/-- The outcome at a destination depends on the metrics and the taps only (R95). -/
theorem acsDestination_congr {s s' : State} (hmetrics : s.pmv = s'.pmv ∧ s.pmw = s'.pmw)
    (htaps : s.tap1 = s'.tap1 ∧ s.tap2 = s'.tap2) (r0 r1 : Bool) (d : TrellisState) :
    acsDestination s r0 r1 d = acsDestination s' r0 r1 d := by
  simp only [acsDestination, acsCandidate, State.metric, hmetrics, htaps]

/-- The add-compare-select step writes decision word T (R95). -/
theorem tbmWord_acsStep (r0 r1 : Bool) (s : State) (i : Nat) :
    (acsStep r0 r1 s).tbmWord i =
      if i = s.t.toNat then perState fun d => (acsDestination s r0 r1 d).2 else s.tbmWord i := by
  rw [← State.tbmWord_writeTbm]
  rfl

theorem lockstep_acsPhase {s s' t t' : State} (hinv : s.Inv) (hinv' : s'.Inv) (hsame : SameOperands s s')
    (hphase : s.phase = .acs ∧ s'.phase = .acs) (hcount : s.t = s'.t ∧ s.nstep = s'.nstep)
    (hmetrics : s.pmv = s'.pmv ∧ s.pmw = s'.pmw) (htrace : ∀ i < s.t.toNat, s.tbmWord i = s'.tbmWord i)
    (h : acsPhase s = .next t) (h' : acsPhase s' = .next t') : Lockstep .decode t t' := by
  obtain ⟨-, hframe, hlen, -⟩ := (phaseSound_acs hphase.1).1 hinv.phase
  obtain ⟨-, hframe', -⟩ := (phaseSound_acs hphase.2).1 hinv'.phase
  obtain ⟨ht, hn⟩ := hcount
  obtain ⟨hlast, rfl⟩ | ⟨r0, r1, hlt, -, h0, h1, -, rfl⟩ := acsPhase_cases h <;>
    obtain ⟨hlast', rfl⟩ | ⟨r0', r1', hlt', -, h0', h1', -, rfl⟩ := acsPhase_cases h'
  · exact .sel ⟨rfl, rfl⟩ rfl ⟨ht, hn⟩ hmetrics (hlast ▸ htrace)
  · exact absurd (ht ▸ hn ▸ hlast) (BitVec.ne_of_lt hlt')
  · exact absurd (ht ▸ hn ▸ hlast') (BitVec.ne_of_lt hlt)
  · have hlt'' := BitVec.lt_def.1 hlt
    have hr0 : r0 = r0' := by
      rw [hsame.inBit (by omega), ht, h0'] at h0
      exact (Option.some.inj h0).symm
    have hr1 : r1 = r1' := by
      rw [hsame.inBit (by omega), ht, h1'] at h1
      exact (Option.some.inj h1).symm
    subst hr0 hr1
    have hdest := funext (acsDestination_congr hmetrics (hsame.taps hframe hframe') r0 r1)
    refine .acs hphase rfl ⟨congrArg (· + 1) ht, hn⟩ (by simp [hdest]) fun i hi => ?_
    have hi' : i < s.t.toNat + 1 := toNat_add_one_of_lt hlt ▸ hi
    rw [tbmWord_acsStep, tbmWord_acsStep, hdest, ← ht]
    split
    · rfl
    · exact htrace i (by omega)

theorem lockstep_selPhase {s s' t t' : State} (hcount : s.t = s'.t ∧ s.nstep = s'.nstep) (hinv : s.Inv)
    (hphase : s.phase = .sel) (hmetrics : s.pmv = s'.pmv ∧ s.pmw = s'.pmw)
    (htrace : ∀ i < s.nstep.toNat, s.tbmWord i = s'.tbmWord i) (h : selPhase s = .next t) (h' : selPhase s' = .next t') :
    Lockstep .decode t t' := by
  obtain ⟨-, -, -, hlast, -⟩ := (phaseSound_sel hphase).1 hinv.phase
  have hmetric : s.metric = s'.metric := by
    funext k
    simp only [State.metric, hmetrics]
  obtain ⟨k, hk, rfl⟩ := selPhase_cases h
  obtain ⟨k', hk', rfl⟩ := selPhase_cases h'
  have hbest : k = k' := by
    rw [hmetric, hk'] at hk
    exact (Option.some.inj hk).symm
  exact .tb ⟨rfl, rfl⟩ rfl hcount hmetrics hbest hbest htrace fun i hge hlt => absurd (hlast ▸ hge) (Nat.not_le.2 hlt)

theorem lockstep_tbPhase {s s' t t' : State} (hinv : s.Inv) (hinv' : s'.Inv) (hphase : s.phase = .tb ∧ s'.phase = .tb)
    (hcount : s.t = s'.t ∧ s.nstep = s'.nstep) (hmetrics : s.pmv = s'.pmv ∧ s.pmw = s'.pmw) (hbest : s.bestr = s'.bestr)
    (hpointer : s.tbs = s'.tbs) (htrace : ∀ i < s.nstep.toNat, s.tbmWord i = s'.tbmWord i)
    (hout : ∀ i, s.t.toNat ≤ i → i < s.nstep.toNat → s.outByte i = s'.outByte i)
    (h : tbPhase s = .next t) (h' : tbPhase s' = .next t') : Lockstep .decode t t' := by
  obtain ⟨hopr, -, -, hle, -⟩ := (phaseSound_tb hphase.1).1 hinv.phase
  obtain ⟨hopr', -⟩ := (phaseSound_tb hphase.2).1 hinv'.phase
  obtain ⟨ht, hn⟩ := hcount
  obtain ⟨hzero, rfl⟩ | ⟨hmore, -, rfl⟩ := tbPhase_cases h <;>
    obtain ⟨hzero', rfl⟩ | ⟨hmore', -, rfl⟩ := tbPhase_cases h'
  · refine .finished ⟨rfl, rfl⟩ ⟨rfl, rfl⟩ rfl (by simp [hopr, hopr', hn]) (fun i hi => hout i (by simp [hzero]) ?_) nofun
      fun _ _ => ⟨hbest, hmetrics⟩
    simpa [hopr] using hi
  · exact absurd (ht ▸ hzero) hmore'
  · exact absurd (ht ▸ hzero') hmore
  · have hpos := toNat_ne_zero_of_ne hmore
    have hpointer' : (tracebackStep s).tbs = (tracebackStep s').tbs := by
      simp only [tracebackStep_writes, ← ht, ← hpointer]
      rw [htrace _ (by omega)]
    refine .tb hphase rfl ⟨congrArg (· - 1) ht, hn⟩ hmetrics hbest hpointer' htrace fun i hge hlt => ?_
    have hge' : s.t.toNat - 1 ≤ i := toNat_sub_one_of_ne hmore ▸ hge
    rw [outByte_tracebackStep, outByte_tracebackStep, ← ht, ← hpointer]
    split
    · rfl
    · exact hout i (by omega) hlt

/-! ### The whole command -/

/-- One step of both blocks keeps them in lockstep. -/
theorem lockstep_sequencerStep {op : Operation} {s s' t t' : State} (hinv : s.Inv) (hinv' : s'.Inv)
    (hsame : SameOperands s s') (hlock : Lockstep op s s') (hbusy : s.phase ≠ .idle)
    (h : sequencerStep s = .next t) (h' : sequencerStep s' = .next t') : Lockstep op t t' := by
  cases hlock with
  | check hphase hopr =>
    simp only [sequencerStep, hphase] at h h'
    exact lockstep_checkPhase hsame (hopr.1 ▸ ((phaseSound_check hphase.1).1 hinv.phase).1) hopr h h'
  | enc hphase hop hcount hregister hout =>
    simp only [sequencerStep, hphase] at h h'
    exact hop ▸ lockstep_encPhase hinv hinv' hsame hphase hcount hregister hout h h'
  | acs hphase hop hcount hmetrics htrace =>
    simp only [sequencerStep, hphase] at h h'
    exact hop ▸ lockstep_acsPhase hinv hinv' hsame hphase hcount hmetrics htrace h h'
  | sel hphase hop hcount hmetrics htrace =>
    simp only [sequencerStep, hphase] at h h'
    exact hop ▸ lockstep_selPhase hcount hinv hphase.1 hmetrics htrace h h'
  | tb hphase hop hcount hmetrics hbest hpointer htrace hout =>
    simp only [sequencerStep, hphase] at h h'
    exact hop ▸ lockstep_tbPhase hinv hinv' hphase hcount hmetrics hbest hpointer htrace hout h h'
  | finished hphase => exact absurd hphase.1 hbusy

/-- Two blocks in lockstep that the host leaves alone complete after the same number of steps, still in lockstep. -/
theorem lockstep_completes {op : Operation} {s s' : State} (hs : s.Undisturbed) (hs' : s'.Undisturbed)
    (hsame : SameOperands s s') (hlock : Lockstep op s s') :
    ∃ k t t', runSteps k s = .next t ∧ runSteps k s' = .next t' ∧ t.phase = .idle ∧ Lockstep op t t' := by
  induction hn : s.stepsLeft using Nat.strong_induction_on generalizing s s' with
  | _ n ih =>
    by_cases hidle : s.phase = .idle
    · exact ⟨0, s, s', rfl, rfl, hidle, hlock⟩
    · obtain ⟨u, hu, heffect, hundisturbed⟩ := hs.next
      obtain ⟨u', hu', heffect', hundisturbed'⟩ := hs'.next
      have hlock' := lockstep_sequencerStep hs.inv hs'.inv hsame hlock hidle hu hu'
      obtain ⟨k, t, t', hrun, hrun', hdone⟩ :=
        ih _ (hn ▸ heffect.stepsLeft_lt hs.inv hidle) hundisturbed hundisturbed' (hsame.turn heffect heffect') hlock' rfl
      exact ⟨k + 1, t, t', (runSteps_succ k (hs.step_eq.trans hu)).trans hrun,
        (runSteps_succ k (hs'.step_eq.trans hu')).trans hrun', hdone⟩

/-- Settles O26: the two commands start in lockstep, and lockstep at the completion is agreement on the results. -/
theorem commandDependsOnFrameOnly : Obligations.CommandDependsOnFrameOnly := by
  intro s s' hs hs' hnMax hpoly1 hpoly2 hlenr hopr hframe
  obtain ⟨k, t, t', hrun, hrun', hidle, hlock⟩ := lockstep_completes hs.undisturbed hs'.undisturbed
    ⟨hnMax, hpoly1, hpoly2, hlenr, hframe⟩ (.check ⟨hs.phase, hs'.phase⟩ ⟨rfl, hopr.symm⟩)
  cases hlock with
  | finished hphase hdone herr houtlen hout hencode hdecode =>
    exact ⟨k, t, t', hrun, hrun', hphase.1, hphase.2, hdone.1, hdone.2, herr, houtlen, hout, hencode, hdecode⟩
  | check hphase | enc hphase | acs hphase | sel hphase | tb hphase => simp [hphase.1] at hidle

end Sys2Proof.Machine
end

section
/-! The host's accesses (spec/20_memory.md R41 to R50): what each address reaches, which accesses get a bus error, what a read
leaves unchanged, and which writes are dropped or ignored. -/

namespace Sys2Proof.Machine

/-- Settles O2. -/
theorem stepGivesTheBlockItsTurn : Obligations.StepGivesTheBlockItsTurn := by
  intro s rest
  constructor <;> intro hinputs
  · simp only [step, hinputs]
  · simp only [step, hinputs, takeInput]
    rfl

/-- A step that takes an access is the access, on the state with that input taken. -/
theorem step_of_access {s : State} {a : Access} {rest : List HostInput} (hinputs : s.inputs = .access a :: rest) :
    step s = busAccess a (s.withInputs rest) := by
  simp only [step, hinputs, takeInput]

/-! ### The address map -/

@[simp] theorem registerAt_registerOffset (r : Register) : registerAt (registerOffset r) = some r := by
  cases r <;> rfl

/-- Every multiple of 4 below 0x40 is a register's offset (R42). -/
theorem exists_registerOffset {offset : Nat} (hlt : offset < 0x40) (haligned : offset % 4 = 0) :
    ∃ r, offset = registerOffset r := by
  have hall : ∀ o < 0x40, o % 4 = 0 → ∃ r ∈ registers, o = registerOffset r := by decide
  obtain ⟨r, -, hr⟩ := hall offset hlt haligned
  exact ⟨r, hr⟩

theorem registerOffset_lt (r : Register) : registerOffset r < 0x40 := by
  cases r <;> decide

theorem inWindow_iff (p : Params) (base offset n : Nat) :
    inWindow p base offset n = true ↔ base ≤ offset ∧ offset + n ≤ base + 2 * p.nMax ∧ offset % n = 0 := by
  simp [inWindow, and_assoc]

theorem sizeBytes_pos (size : AccessSize) : 0 < sizeBytes size := by
  cases size <;> decide

theorem offsetTarget_registerOffset (p : Params) (r : Register) :
    offsetTarget p (registerOffset r) .word = some (.register r) := by
  have hlt := registerOffset_lt r
  rw [offsetTarget, if_neg (by omega), if_pos hlt, if_pos rfl, registerAt_registerOffset, Option.map_some]

/-- With N_MAX in its range, the IN window lies above the registers and inside the block's 2^18 bytes (R42). -/
theorem offsetTarget_input {p : Params} (hok : p.ok = true) {offset : Nat} {size : AccessSize}
    (h : inWindow p inWindowBase offset (sizeBytes size) = true) :
    offsetTarget p offset size = some (.input (offset - inWindowBase)) := by
  have hrange := (Params.ok_iff p).1 hok
  obtain ⟨hbase, hend, -⟩ := (inWindow_iff ..).1 h
  unfold inWindowBase at hbase hend
  rw [offsetTarget, if_neg (by omega), if_neg (by omega), if_pos h]

/-- With N_MAX in its range, the OUT window lies above the IN window and inside the block's 2^18 bytes (R42). -/
theorem offsetTarget_output {p : Params} (hok : p.ok = true) {offset : Nat} {size : AccessSize}
    (h : inWindow p outWindowBase offset (sizeBytes size) = true) :
    offsetTarget p offset size = some (.output (offset - outWindowBase)) := by
  have hrange := (Params.ok_iff p).1 hok
  have hpos := sizeBytes_pos size
  obtain ⟨hbase, hend, -⟩ := (inWindow_iff ..).1 h
  unfold outWindowBase at hbase hend
  have hnotIn : ¬ inWindow p inWindowBase offset (sizeBytes size) = true := by
    rw [inWindow_iff, inWindowBase]
    omega
  rw [offsetTarget, if_neg (by omega), if_neg (by omega), if_neg hnotIn, if_pos h]

/-- An offset reaches something exactly when R45 allows the access: an aligned register access of 4 bytes, or an aligned access
inside a window. -/
theorem offsetTarget_isSome_iff {p : Params} (hok : p.ok = true) (offset : Nat) (size : AccessSize) :
    (offsetTarget p offset size).isSome = true ↔
      (size = .word ∧ offset % 4 = 0 ∧ offset < 0x40) ∨ inWindow p inWindowBase offset (sizeBytes size) = true ∨
        inWindow p outWindowBase offset (sizeBytes size) = true := by
  constructor
  · intro hsome
    obtain ⟨target, htarget⟩ := Option.isSome_iff_exists.1 hsome
    simp only [inWindow_iff, inWindowBase, outWindowBase]
    obtain ⟨r, -, hsize, rfl, hlt⟩ | ⟨i, -, rfl, hinside, haligned⟩ | ⟨i, -, rfl, hinside, haligned⟩ :=
      offsetTarget_cases htarget
    · exact .inl ⟨hsize, by cases r <;> rfl, hlt⟩
    · exact .inr (.inl ⟨by omega, by omega, haligned⟩)
    · exact .inr (.inr ⟨by omega, by omega, haligned⟩)
  · rintro (⟨rfl, haligned, hlt⟩ | hin | hout)
    · obtain ⟨r, rfl⟩ := exists_registerOffset hlt haligned
      rw [offsetTarget_registerOffset, Option.isSome_some]
    · rw [offsetTarget_input hok hin, Option.isSome_some]
    · rw [offsetTarget_output hok hout, Option.isSome_some]

/-- From BASE on, an access reaches what its offset reaches. -/
theorem accessTarget_of_le {p : Params} {a : Access} (h : p.base ≤ a.addr) :
    accessTarget p a = offsetTarget p (a.addr - p.base) a.size :=
  if_neg (Nat.not_lt.2 h)

theorem accessTarget_base_add (p : Params) (offset : Nat) (size : AccessSize) (kind : AccessKind) :
    accessTarget p { addr := p.base + offset, size := size, kind := kind } = offsetTarget p offset size := by
  rw [accessTarget_of_le (Nat.le_add_right ..), Nat.add_sub_cancel_left]

/-- Which accesses reach something, written out (R45, R46; logs 7 and 8). -/
theorem accessTarget_isSome_iff {p : Params} (hok : p.ok = true) (a : Access) :
    (accessTarget p a).isSome = true ↔ p.base ≤ a.addr ∧
      ((a.size = .word ∧ (a.addr - p.base) % 4 = 0 ∧ a.addr - p.base < 0x40) ∨
        inWindow p inWindowBase (a.addr - p.base) (sizeBytes a.size) = true ∨
        inWindow p outWindowBase (a.addr - p.base) (sizeBytes a.size) = true) := by
  by_cases hbase : p.base ≤ a.addr
  · simp only [hbase, true_and, accessTarget_of_le, offsetTarget_isSome_iff hok]
  · simp [accessTarget, hbase, Nat.not_le.1 hbase]

/-- `n` aligned bytes from index `i` of a window lie in it at its base plus `i`, when the base is a multiple of 4. -/
theorem inWindow_base_add {p : Params} {base i : Nat} {size : AccessSize} (hbase : base % 4 = 0)
    (hfits : i + sizeBytes size ≤ 2 * p.nMax) (haligned : i % sizeBytes size = 0) :
    inWindow p base (base + i) (sizeBytes size) = true := by
  refine (inWindow_iff ..).2 ⟨by omega, by omega, ?_⟩
  cases size <;> simp only [sizeBytes] at haligned ⊢ <;> omega

/-- Settles O41: each offset from BASE reaches the register or the window index R42 gives it. -/
theorem addressMap : Obligations.AddressMap := by
  intro p kind hok
  refine ⟨fun x hx => ?_, fun size i hfits haligned => ?_⟩
  · have hoffset : x.1 = registerOffset x.2 := by
      revert x
      decide
    rw [accessTarget_base_add, hoffset, offsetTarget_registerOffset]
  · have hin := offsetTarget_input hok (inWindow_base_add (base := inWindowBase) rfl hfits haligned)
    have hout := offsetTarget_output hok (inWindow_base_add (base := outWindowBase) rfl hfits haligned)
    rw [Nat.add_sub_cancel_left] at hin hout
    rw [Nat.add_assoc, Nat.add_assoc, accessTarget_base_add, accessTarget_base_add]
    exact ⟨hin, hout⟩

/-! ### Responses -/

/-- An access that reaches something is answered OKAY (R47 to R49). -/
theorem okay_of_accessTarget {s t : State} {a : Access} {target : Target} (htarget : accessTarget s.params a = some target)
    (h : busAccess a s = .next t) : ∃ data, t.resp = some { status := .okay, data := data } := by
  obtain ⟨-, rfl⟩ | ⟨-, hnone, -⟩ | ⟨-, -, ⟨data, rfl⟩ | ⟨n, rfl⟩⟩ | ⟨data, r, -, -, -, hreg⟩ |
    ⟨data, i, -, -, -, ⟨-, rfl⟩ | ⟨-, rfl⟩⟩ | ⟨data, i, -, -, -, rfl⟩ := busAccess_cases h
  · exact ⟨0, rfl⟩
  · simp [hnone] at htarget
  · exact ⟨data, rfl⟩
  · exact ⟨_, rfl⟩
  · obtain ⟨-, i, -, hexec⟩ | ⟨-, rfl⟩ | ⟨-, -, rfl⟩ | ⟨-, -, rfl⟩ | ⟨-, -, rfl⟩ | ⟨-, -, rfl⟩ | ⟨-, -, -, -, -, rfl⟩ :=
      writeRegister_cases hreg
    · obtain ⟨-, rfl⟩ | ⟨-, rfl⟩ := exec_cases hexec <;> exact ⟨0, by simp⟩
    all_goals exact ⟨0, rfl⟩
  · exact ⟨0, rfl⟩
  · exact ⟨0, rfl⟩
  · exact ⟨0, rfl⟩

/-- An access that reaches nothing gets the bus error and changes nothing (R46). -/
theorem busAccess_unmapped {s : State} {a : Access} (hrst : s.rst = false) (h : accessTarget s.params a = none) :
    busAccess a s = .next (s.respond .error 0) := by
  simp [busAccess, hrst, h]

/-- Settles O40: an access gets the bus error when it reaches nothing, and OKAY when it reaches something. -/
theorem busErrorExactly : Obligations.BusErrorExactly := by
  intro s a rest hok hrst hinputs
  have hstep := step_of_access hinputs
  have hlegal := accessTarget_isSome_iff hok a
  simp only [inWindow_iff] at hlegal
  cases htarget : accessTarget s.params a with
  | none =>
    refine ⟨_, hstep.trans (busAccess_unmapped hrst htarget), fun _ => rfl, fun hallowed => ?_⟩
    exact absurd (hlegal.2 hallowed) (by simp [htarget])
  | some target =>
    obtain ⟨t, ht⟩ := busAccess_next a (s.withInputs rest)
    refine ⟨t, hstep.trans ht, fun hillegal => ?_, fun _ => okay_of_accessTarget (s := s.withInputs rest) htarget ht⟩
    exact absurd (hlegal.1 (by simp [htarget])) hillegal

/-- Settles O42: every answer to a read writes the response and at most the count of free reads. -/
theorem readsHaveNoSideEffect : Obligations.ReadsHaveNoSideEffect := by
  intro s a rest hread hinputs
  obtain ⟨t, ht⟩ := busAccess_next a (s.withInputs rest)
  refine ⟨t, (step_of_access hinputs).trans ht, ?_⟩
  obtain ⟨-, rfl⟩ | ⟨-, -, rfl⟩ | ⟨-, -, ⟨data, rfl⟩ | ⟨n, rfl⟩⟩ | ⟨data, r, -, hwrite, -⟩ | ⟨data, i, -, hwrite, -⟩ |
    ⟨data, i, -, hwrite, -⟩ := busAccess_cases ht
  · rfl
  · rfl
  · rfl
  · rfl
  all_goals exact absurd (hread.symm.trans hwrite) nofun

/-! ### Writes that BUSY drops or that nothing takes -/

/-- A write of a target that BUSY protects sets OVR only (R49). -/
theorem busWrite_dropped {s : State} (hbusy : s.busy = true) {target : Target} (h : droppedWhileBusy target = true)
    (size : AccessSize) (data : Word) : busWrite target size data s = .next s.withOverrun := by
  cases target with
  | register r =>
    have hr : r = .cmd ∨ r = .len ∨ r = .poly1 ∨ r = .poly2 := by simpa [droppedWhileBusy, or_assoc] using h
    obtain rfl | rfl | rfl | rfl := hr
    · obtain ⟨i, -, hissue⟩ := writeCmd_eq data s
      exact hissue.trans (by rw [exec_eq_issueCommand, issueCommand_busy _ _ hbusy])
    all_goals exact if_pos hbusy
  | input i => exact if_pos hbusy
  | output i => cases h

/-- A write of a read-only or reserved register or of OUT changes nothing (R48). -/
theorem busWrite_readOnly {target : Target} (h : readOnlyTarget target = true) (size : AccessSize) (data : Word) (s : State) :
    busWrite target size data s = .next s := by
  cases target with
  | register r =>
    cases r with
    | cmd | ctrl | len | poly1 | poly2 => cases h
    | _ => rfl
  | input i => cases h
  | output i => rfl

/-- A pending write is answered with a next state. -/
theorem next_of_nextWrite {s : State} {target : Target} {size : AccessSize} {data : Word} {rest : List HostInput}
    (h : s.nextWrite target size data rest) : ∃ t, step s = .next t := by
  obtain ⟨-, a, hinputs, -⟩ := h
  exact step_of_access hinputs ▸ busAccess_next a _

/-- Settles O45: each class of targets has its own outcome of the write. -/
theorem droppedAndIgnoredWrites : Obligations.DroppedAndIgnoredWrites := by
  intro s target size data rest hwrite
  obtain ⟨t, ht⟩ := next_of_nextWrite hwrite
  have hbus := (step_of_nextWrite hwrite).symm.trans ht
  refine ⟨t, 0, ht, fun hdropped hbusy => ?_, ?_, fun hreadOnly => ?_⟩
  · rw [busWrite_dropped (s := (s.withInputs rest).respond .okay 0) hbusy hdropped] at hbus
    cases hbus
    rfl
  · rintro rfl
    cases hbus
    rfl
  · rw [busWrite_readOnly hreadOnly] at hbus
    cases hbus
    rfl

end Sys2Proof.Machine
end

section
/-! The byte order of the IN and OUT windows (spec/20_memory.md R44): a read as a sum of bytes, and the bytes a write leaves. -/

namespace Sys2Proof

/-- The first byte of a word made of bytes is its low 8 bits, the rest lie above. -/
theorem ofLeBytes_cons (b : Byte) (rest : List Byte) : ofLeBytes (b :: rest) = (ofLeBytes rest).setWidth 24 ++ b := by
  simp only [ofLeBytes]
  ext i hi
  grind

/-- `n` bytes make a number below 2^(8n). -/
theorem toNat_ofLeBytes_lt (bs : List Byte) : (ofLeBytes bs).toNat < 2 ^ (8 * bs.length) := by
  induction bs with
  | nil => simp [ofLeBytes]
  | cons b rest ih =>
    have hlow := Nat.mod_le (ofLeBytes rest).toNat (2 ^ 24)
    have hbyte := b.isLt
    rw [ofLeBytes_cons, toNat_append_eq_add, BitVec.toNat_setWidth, List.length_cons, Nat.mul_add, Nat.pow_add]
    omega

/-- At most four bytes make the sum of the first byte and 256 times the rest (R44). -/
theorem toNat_ofLeBytes_cons (b : Byte) {rest : List Byte} (h : rest.length ≤ 3) :
    (ofLeBytes (b :: rest)).toNat = b.toNat + 2 ^ 8 * (ofLeBytes rest).toNat := by
  have hfits : (ofLeBytes rest).toNat < 2 ^ 24 :=
    (toNat_ofLeBytes_lt rest).trans_le (Nat.pow_le_pow_right (by omega) (by omega))
  rw [ofLeBytes_cons, toNat_append_eq_add, BitVec.toNat_setWidth, Nat.mod_eq_of_lt hfits]
  omega

end Sys2Proof

namespace Sys2Proof.Machine

@[simp] theorem length_bytesFrom (read : Nat → Byte) (i n : Nat) : (bytesFrom read i n).length = n := by
  induction n generalizing i with
  | zero => rfl
  | succ n ih => rw [bytesFrom, List.length_cons, ih]

/-- A window read of at most four bytes is the sum of the bytes at their places (R44). -/
theorem toNat_windowWord (read : Nat → Byte) (i : Nat) {n : Nat} (hn : n ≤ 4) :
    (windowWord read i n).toNat = ((List.range n).map fun j => (read (i + j)).toNat * 2 ^ (8 * j)).sum := by
  induction n generalizing i with
  | zero => rfl
  | succ n ih =>
    have hshift : ∀ j, (read (i + 1 + j)).toNat * 2 ^ (8 * j) * 2 ^ 8 = (read (i + (j + 1))).toNat * 2 ^ (8 * (j + 1)) := by
      intro j
      rw [Nat.mul_assoc, ← Nat.pow_add, Nat.add_assoc, Nat.add_comm 1 j, Nat.mul_add]
    calc (windowWord read i (n + 1)).toNat
        = (read i).toNat + 2 ^ 8 * (windowWord read (i + 1) n).toNat :=
          toNat_ofLeBytes_cons (read i) (by rw [length_bytesFrom]; omega)
      _ = (read i).toNat + ((List.range n).map fun j => (read (i + (j + 1))).toNat * 2 ^ (8 * (j + 1))).sum := by
          rw [ih (i + 1) (by omega), Nat.mul_comm, ← List.sum_map_mul_right]
          simp only [hshift]
      _ = ((List.range (n + 1)).map fun j => (read (i + j)).toNat * 2 ^ (8 * j)).sum := by
          simp [List.range_succ_eq_map, Function.comp_def]

/-- IN after a write of `n` bytes at index `i`: the data's bytes from `i` on, and what was there elsewhere (R24, R44). -/
theorem inByte_writeIn (i n : Nat) (data : Word) (s : State) (k : Nat) :
    (writeIn i n data s).inByte k = if i ≤ k ∧ k < i + n then data.extractLsb' (8 * (k - i)) 8 else s.inByte k := by
  simp only [State.inByte, writeIn, Memory.lookup_insertBytes, leBytes_length, leBytes_getElem]
  split <;> rfl

/-- Settles O43: the byte laws of a window read and of a write to IN, on the step that takes the access. -/
theorem littleEndianWindows : Obligations.LittleEndianWindows := by
  refine ⟨fun f i size => toNat_windowWord f i (sizeBytes_le_four size), ?_, ?_⟩
  · intro s i size data rest hidle hwrite
    refine ⟨_, (step_of_nextWrite hwrite).trans (writeUnlessBusy_acknowledged hidle _ rest), fun j hj => ?_, fun k hk => ?_, rfl⟩
    · rw [inByte_writeIn, if_pos ⟨by omega, by omega⟩, Nat.add_sub_cancel_left]
    · rw [inByte_writeIn, if_neg (by omega)]
      rfl
  · intro s i size rest
    refine ⟨fun hread => ⟨_, step_of_nextRead hread, rfl⟩, fun hidle hread => ⟨_, step_of_nextRead hread, ?_⟩⟩
    simp only [busRead, busy_withInputs, hidle]
    rfl

end Sys2Proof.Machine
end

section
/-! A running command and the host (spec/20_memory.md R41, R49 to R51, spec/40_commands.md R77): the block's turn always answers,
and neither reads nor changes what a host access can change while BUSY. -/

namespace Sys2Proof.Machine

/-- Held in reset or not, the block's turn answers a next state (R113, R126). -/
theorem State.Inv.blockTurn_next {s : State} (h : s.Inv) : ∃ t, blockTurn s = .next t := by
  unfold blockTurn
  split
  · exact ⟨_, rfl⟩
  · exact h.sequencerStep_next

/-- Settles O30: an access, a change of `rst` and the block's turn each answer a next state. -/
theorem invariantStepNeverStops : Obligations.InvariantStepNeverStops := by
  intro s hinv
  unfold State.safeStep step
  split
  case h_1 => exact hinv.blockTurn_next
  case h_2 i rest _ =>
    cases i with
    | access a => exact busAccess_next a _
    | rst level => cases level <;> exact ⟨_, rfl⟩
    | advance => exact (hinv.hostSide rest s.resp s.draws).blockTurn_next

/-! ### The sequencer sees the block only -/

/-- An outcome with its next state, if any, looked at through a function. -/
def mapNext (f : State → State) : Host.Outcome State Fault Refusal → Host.Outcome State Fault Refusal
  | .next s => .next (f s)
  | .fault r => .fault r
  | .refused r => .refused r

@[simp] theorem mapNext_next (f : State → State) (s : State) : mapNext f (.next s) = .next (f s) := rfl

theorem mapNext_eq_next_iff {f : State → State} {o : Host.Outcome State Fault Refusal} {u : State} :
    mapNext f o = .next u ↔ ∃ t, o = .next t ∧ f t = u := by
  cases o <;> simp [mapNext]

/-- What the sequencer's phases look at is left as it is by the view (R49, R50). -/
theorem State.blockView_reads (s : State) :
    s.blockView.t = s.t ∧ s.blockView.nstep = s.nstep ∧ s.blockView.params = s.params ∧ s.blockView.opr = s.opr ∧
    s.blockView.phase = s.phase ∧ s.blockView.inBit = s.inBit ∧ s.blockView.metric = s.metric ∧
    acsDestination s.blockView = acsDestination s ∧ checkError s.blockView = checkError s := by
  refine ⟨rfl, rfl, rfl, rfl, rfl, rfl, rfl, rfl, ?_⟩
  have hframe : s.blockView.frameBinary s.lenr.toNat = s.frameBinary s.lenr.toNat :=
    State.frameBinary_congr (s := s) (t := s.blockView) rfl rfl _
  unfold checkError
  rw [← hframe]
  rfl

theorem checkPhase_blockView (s : State) : checkPhase s.blockView = mapNext State.blockView (checkPhase s) := by
  simp only [checkPhase, State.blockView_reads]
  cases s.opr <;> cases checkError s <;> rfl

theorem encPhase_blockView (s : State) : encPhase s.blockView = mapNext State.blockView (encPhase s) := by
  simp only [encPhase, State.blockView_reads]
  split
  · rfl
  split
  · split
    · rfl
    · split <;> rfl
  · rfl

theorem acsPhase_blockView (s : State) : acsPhase s.blockView = mapNext State.blockView (acsPhase s) := by
  simp only [acsPhase, State.blockView_reads]
  split
  · rfl
  split
  · split
    · rfl
    split
    · split <;> rfl
    · rfl
  · rfl

theorem selPhase_blockView (s : State) : selPhase s.blockView = mapNext State.blockView (selPhase s) := by
  simp only [selPhase, State.blockView_reads]
  split <;> rfl

theorem tbPhase_blockView (s : State) : tbPhase s.blockView = mapNext State.blockView (tbPhase s) := by
  simp only [tbPhase, State.blockView_reads]
  split
  · rfl
  split <;> rfl

/-- The sequencer's turn on what the host cannot disturb is that view of its turn on the whole state (R51, R77). -/
theorem sequencerStep_blockView (s : State) : sequencerStep s.blockView = mapNext State.blockView (sequencerStep s) := by
  simp only [sequencerStep, State.blockView_reads]
  cases s.phase with
  | idle => rfl
  | check => exact checkPhase_blockView s
  | enc => exact encPhase_blockView s
  | acs => exact acsPhase_blockView s
  | sel => exact selPhase_blockView s
  | tb => exact tbPhase_blockView s

/-- Two states with the same view give the sequencer's turn the same view. -/
theorem sequencerStep_of_blockView_eq {s v v' : State} (hview : s.blockView = v.blockView) (h : sequencerStep v = .next v') :
    ∃ t, sequencerStep s = .next t ∧ t.blockView = v'.blockView := by
  rw [← mapNext_eq_next_iff, ← sequencerStep_blockView, hview, sequencerStep_blockView, h, mapNext_next]

/-! ### The host cannot disturb a running command -/

/-- While BUSY a register write reaches OVR or IRQ_EN only (R49). -/
theorem writeRegister_of_busy {r : Register} {data : Word} {s t : State} (hbusy : s.busy = true)
    (h : writeRegister r data s = .next t) : t.blockView = s.blockView ∧ t.inputs = s.inputs := by
  obtain ⟨-, i, -, hexec⟩ | ⟨-, rfl⟩ | ⟨-, -, rfl⟩ | ⟨-, hidle, -⟩ | ⟨-, hidle, -⟩ | ⟨-, hidle, -⟩ |
    ⟨-, -, -, -, -, rfl⟩ := writeRegister_cases h
  · obtain ⟨-, rfl⟩ | ⟨hidle, -⟩ := exec_cases hexec
    · exact ⟨rfl, rfl⟩
    · simp [hbusy] at hidle
  · exact ⟨rfl, rfl⟩
  · exact ⟨rfl, rfl⟩
  · simp [hbusy] at hidle
  · simp [hbusy] at hidle
  · simp [hbusy] at hidle
  · exact ⟨rfl, rfl⟩

/-- An access while BUSY leaves the view as it is (R41, R49, R50). -/
theorem busAccess_of_busy {s : State} (hbusy : s.busy = true) (a : Access) :
    ∃ t, busAccess a s = .next t ∧ t.blockView = s.blockView ∧ t.inputs = s.inputs := by
  obtain ⟨t, ht⟩ := busAccess_next a s
  refine ⟨t, ht, ?_⟩
  obtain ⟨-, rfl⟩ | ⟨-, -, rfl⟩ | ⟨-, -, ⟨data, rfl⟩ | ⟨n, rfl⟩⟩ | ⟨data, r, -, -, -, hreg⟩ |
    ⟨data, i, -, -, -, ⟨-, rfl⟩ | ⟨hidle, -⟩⟩ | ⟨data, i, -, -, -, rfl⟩ := busAccess_cases ht
  · exact ⟨rfl, rfl⟩
  · exact ⟨rfl, rfl⟩
  · exact ⟨rfl, rfl⟩
  · exact ⟨rfl, rfl⟩
  · exact writeRegister_of_busy (s := s.respond .okay 0) hbusy hreg
  · exact ⟨rfl, rfl⟩
  · simp [hbusy] at hidle
  · exact ⟨rfl, rfl⟩

/-- A run of one step and more is that step's answer, then the rest. -/
theorem runSteps_succ_eq_next {k : Nat} {s t : State} (h : runSteps (k + 1) s = .next t) :
    ∃ u, step s = .next u ∧ runSteps k u = .next t := by
  cases hstep : step s with
  | next u => exact ⟨u, rfl, runSteps_succ k hstep ▸ h⟩
  | fault r | refused r => simp [runSteps, hstep] at h

/-- With nothing pending and out of reset the sequencer takes a step, and nothing comes to be pending. -/
theorem sequencerStep_of_step {v v' : State} (hpending : v.inputs = []) (hrst : v.rst = false) (h : step v = .next v') :
    sequencerStep v = .next v' ∧ v'.inputs = [] ∧ v'.rst = false := by
  have hturn : sequencerStep v = .next v' := by simpa [step, hpending, blockTurn, hrst] using h
  have hkeeps := (turnEffect_of_sequencerStep hturn).keeps
  exact ⟨hturn, by simp [hkeeps, hpending], by simp [hkeeps, hrst]⟩

/-- A turn that the host leaves to the block takes the block where the same turn of a block with its view takes it. -/
theorem step_advance_of_blockView_eq {s v v' : State} {rest : List HostInput} (hview : s.blockView = v.blockView)
    (hrst : v.rst = false) (hinputs : s.inputs = .advance :: rest) (h : sequencerStep v = .next v') :
    ∃ t, step s = .next t ∧ t.blockView = v'.blockView ∧ t.inputs = rest := by
  have hlow : s.rst = false := (congrArg State.rst hview).trans hrst
  obtain ⟨t, ht, htview⟩ := sequencerStep_of_blockView_eq (s := s.withInputs rest) hview h
  have hkeeps := (turnEffect_of_sequencerStep ht).keeps
  exact ⟨t, by simpa [step, hinputs, takeInput, blockTurn, hlow] using ht, htview, by simp [hkeeps]⟩

theorem blockTurns_cons_access (a : Access) (l : List HostInput) : blockTurns (.access a :: l) = blockTurns l := by
  simp [blockTurns]

theorem blockTurns_cons_advance (l : List HostInput) : blockTurns (.advance :: l) = blockTurns l + 1 := by
  simp [blockTurns]

/-- Inputs without a reset, then a last turn, take a block where its turns alone take one with the same view, if those turns
keep it BUSY until the last. -/
theorem runSteps_of_blockView_eq {s v u : State} {l : List HostInput} (hview : s.blockView = v.blockView)
    (hinputs : s.inputs = l ++ [.advance]) (hpending : v.inputs = []) (hrst : v.rst = false)
    (hnoReset : ∀ level, HostInput.rst level ∉ l)
    (hbusy : ∀ j ≤ blockTurns l, ∃ w, runSteps j v = .next w ∧ w.busy = true)
    (hrun : runSteps (blockTurns l + 1) v = .next u) :
    ∃ t, runSteps (l.length + 1) s = .next t ∧ t.blockView = u.blockView := by
  induction l generalizing s v with
  | nil =>
    obtain ⟨v', hstep, hlast⟩ := runSteps_succ_eq_next hrun
    obtain ⟨hturn, -, -⟩ := sequencerStep_of_step hpending hrst hstep
    obtain ⟨t, ht, htview, -⟩ := step_advance_of_blockView_eq hview hrst hinputs hturn
    cases hlast
    exact ⟨t, runSteps_succ 0 ht, htview⟩
  | cons i l ih =>
    have hnoReset' : ∀ level, HostInput.rst level ∉ l := fun level hmem => hnoReset level (.tail _ hmem)
    cases i with
    | access a =>
      rw [blockTurns_cons_access] at hbusy hrun
      obtain ⟨_, hnow, hvbusy⟩ := hbusy 0 (Nat.zero_le _)
      cases hnow
      have hsbusy : s.busy = true := (congrArg State.busy hview).trans hvbusy
      obtain ⟨t, ht, htview, htinputs⟩ := busAccess_of_busy (s := s.withInputs (l ++ [.advance])) hsbusy a
      obtain ⟨t', hrest, hend⟩ := ih (htview.trans hview) htinputs hpending hrst hnoReset' hbusy hrun
      exact ⟨t', (runSteps_succ _ ((step_of_access hinputs).trans ht)).trans hrest, hend⟩
    | rst level => exact absurd (.head _) (hnoReset level)
    | advance =>
      rw [blockTurns_cons_advance] at hbusy hrun
      obtain ⟨v', hstep, hrun'⟩ := runSteps_succ_eq_next hrun
      obtain ⟨hturn, hpending', hrst'⟩ := sequencerStep_of_step hpending hrst hstep
      obtain ⟨t, ht, htview, htinputs⟩ := step_advance_of_blockView_eq hview hrst hinputs hturn
      have hbusy' : ∀ j ≤ blockTurns l, ∃ w, runSteps j v' = .next w ∧ w.busy = true := fun j hj => by
        simpa only [runSteps_succ j hstep] using hbusy (j + 1) (Nat.succ_le_succ hj)
      obtain ⟨t', hrest, hend⟩ := ih htview htinputs hpending' hrst' hnoReset' hbusy' hrun'
      exact ⟨t', (runSteps_succ _ ht).trans hrest, hend⟩

/-- Settles O27, by induction on the inputs: an access keeps the view, and a turn depends on the view only. -/
theorem hostAccessesCannotDisturbCommand : Obligations.HostAccessesCannotDisturbCommand := by
  intro s u l hrst hnoReset hbusy hrun
  exact runSteps_of_blockView_eq (v := s.withInputs []) rfl rfl rfl hrst hnoReset hbusy hrun

end Sys2Proof.Machine
end

section
/-! The command encoding (spec/30_encoding.md R58 to R60): decoding is a function of the OP field, with the OP of a well-formed
command as its inverse. -/

namespace Sys2Proof

/-- The command an OP value names (R59). `decodeWord_eq` says that the decoder answers it. -/
def commandOf (op : BitVec 4) : Instr :=
  if op = 0 then .nop
  else if op = 1 then .encode
  else if op = 2 then .decode
  else if op = 3 then .clear
  else if op.toNat < 8 then .illegal47 op
  else .illegal8F op

/-- Decoding is total, and reads the OP field only (R59, R60). -/
theorem decodeWord_eq (w : Word) : decodeWord w = .ok (commandOf (opField w)) := by
  have hops : ∀ op : BitVec 4, decodeWord (op.setWidth 32) = .ok (commandOf op) := by decide
  rw [decodeWord_opField, hops]

/-- Exactly one row accepts each word: it suffices to count for the sixteen OP values (R59). -/
theorem length_filter_accepts (w : Word) : (commandMap.filter fun r => r.accepts w).length = 1 := by
  have hops : ∀ op : BitVec 4, (commandMap.filter fun r => r.accepts (op.setWidth 32)).length = 1 := by decide
  rw [List.filter_congr fun r hr => accepts_opField hr w, hops]

theorem accepts_iff (r : CommandRow) (w : Word) : r.accepts w = true ↔ w &&& r.mask = r.pattern := decide_eq_true_iff

/-- The OP of a well-formed command names the command. -/
theorem commandOf_op {i : Instr} (h : i.wellFormed = true) : commandOf i.op = i := by
  cases i with
  | nop => rfl
  | encode => rfl
  | decode => rfl
  | clear => rfl
  | illegal47 op => revert op; decide
  | illegal8F op => revert op; decide

@[simp] theorem op_commandOf (op : BitVec 4) : (commandOf op).op = op := by
  unfold commandOf
  split_ifs with h0 h1 h2 h3
  · exact h0.symm
  · exact h1.symm
  · exact h2.symm
  · exact h3.symm
  · rfl
  · rfl

@[simp] theorem wellFormed_commandOf (op : BitVec 4) : (commandOf op).wellFormed = true := by
  unfold commandOf
  split_ifs
  · rfl
  · rfl
  · rfl
  · rfl
  · simp only [Instr.wellFormed, Bool.and_eq_true, decide_eq_true_eq]
    bv_omega
  · simp only [Instr.wellFormed, decide_eq_true_eq]
    omega

theorem encode_eq_setWidth (i : Instr) : encode i = i.op.setWidth 32 :=
  (BitVec.setWidth_eq_append (by omega)).symm

@[simp] theorem decode_encodeBytes (i : Instr) : decode (encodeBytes i) = .ok (commandOf i.op) := by
  rw [encodeBytes, decode_leBytes, decodeWord_eq, Laws.OpField.opField_encode]

/-- Settles O4: the command of an OP value and the OP value of a command are inverse on well-formed commands. -/
theorem commandEncodingRoundTrip : Obligations.CommandEncodingRoundTrip := by
  constructor
  · intro i hwf
    rw [decode_encodeBytes, commandOf_op hwf]
  · intro w
    have hencode : encode (commandOf (opField w)) = w &&& 0xF#32 := by
      rw [encode_eq_setWidth, op_commandOf, opField_setWidth]
    exact ⟨commandOf (opField w), decodeWord_eq w, wellFormed_commandOf _, hencode⟩

/-- `commandOf` as a chain of cases on the word `w & 0xF` that holds the OP. -/
theorem commandOf_eq_of_setWidth (op : BitVec 4) : commandOf op =
    if op.setWidth 32 = 0#32 then .nop
    else if op.setWidth 32 = 1#32 then .encode
    else if op.setWidth 32 = 2#32 then .decode
    else if op.setWidth 32 = 3#32 then .clear
    else if (op.setWidth 32).toNat < 8 then .illegal47 ((op.setWidth 32).setWidth 4)
    else .illegal8F ((op.setWidth 32).setWidth 4) := by
  revert op
  decide

/-- Settles O5: the rows by evaluation; acceptance and decoding of a word are those of its OP value. -/
theorem commandMapPartitionsWords : Obligations.CommandMapPartitionsWords := by
  refine ⟨rfl, fun r _ w => accepts_iff r w, fun w => ⟨length_filter_accepts w, ?_⟩⟩
  have hcommand := commandOf_eq_of_setWidth (opField w)
  rw [opField_setWidth] at hcommand
  exact (decodeWord_eq w).trans (congrArg Except.ok hcommand)

/-- Of the four bytes of a CMD write only the low half of the first is read (R44, R60). -/
theorem decode_four_bytes (b0 b1 b2 b3 : Byte) : decode [b0, b1, b2, b3] = .ok (commandOf (b0.setWidth 4)) := by
  have hop : opField (ofLeBytes [b0, b1, b2, b3]) = b0.setWidth 4 := by
    rw [ofLeBytes_cons, opField, BitVec.extractLsb'_append_eq_of_add_le (by omega), BitVec.setWidth_eq_extractLsb' (by omega)]
  rw [decode, decodeWord_eq, hop]

/-- Settles O3: each word is decoded by the low half of its first byte. -/
theorem commandWordsDecode : Obligations.CommandWordsDecode :=
  ⟨decode_four_bytes _ _ _ _, decode_four_bytes _ _ _ _, decode_four_bytes _ _ _ _, decode_four_bytes _ _ _ _,
    decode_four_bytes _ _ _ _, decode_four_bytes _ _ _ _, decode_four_bytes _ _ _ _, decode_four_bytes _ _ _ _, rfl⟩

end Sys2Proof

namespace Sys2Proof.Machine

/-- The two symbols by their values (R62). -/
theorem isBinarySymbol_eq_true (c : Byte) : isBinarySymbol c = true ↔ c = 0x30 ∨ c = 0x31 := by
  simp only [isBinarySymbol, Bool.or_eq_true, decide_eq_true_eq]

theorem polyValid_iff (p : BitVec 28) : polyValid p = true ↔
    polyLength p = 3 ∧ isBinarySymbol (polySymbol p 0) = true ∧ isBinarySymbol (polySymbol p 1) = true ∧
      isBinarySymbol (polySymbol p 2) = true := by
  simp only [polyValid, Bool.and_eq_true, decide_eq_true_eq, and_assoc]

/-- The fields of a polynomial register written as PLEN, SYM2, SYM1, SYM0 from the top (R31). -/
theorem polyFields_append (len : BitVec 4) (c b a : Byte) :
    polyLength (len ++ c ++ b ++ a) = len ∧ polySymbol (len ++ c ++ b ++ a) 0 = a ∧
      polySymbol (len ++ c ++ b ++ a) 1 = b ∧ polySymbol (len ++ c ++ b ++ a) 2 = c := by
  refine ⟨?_, ?_, ?_, ?_⟩
  all_goals
    apply BitVec.eq_of_toNat_eq
    simp only [polyLength, polySymbol, BitVec.extractLsb'_toNat, toNat_append_eq_add, Nat.shiftRight_eq_div_pow]
    omega

/-- `bit` of a tap's symbol is the tap (R62). -/
@[simp] theorem symbolOf_eq_one_iff (b : Bool) : symbolOf b = 0x31#8 ↔ b = true := by cases b <;> decide

/-- Settles O16: validity field by field, and the fields of the register that three taps' symbols make. -/
theorem polynomialRegisterMeaning : Obligations.PolynomialRegisterMeaning := by
  refine ⟨fun p => ?_, fun a b c => ?_⟩
  · simp only [polyValid_iff, isBinarySymbol_eq_true]
    rfl
  · obtain ⟨hlen, hsym0, hsym1, hsym2⟩ := polyFields_append 3#4 (symbolOf c) (symbolOf b) (symbolOf a)
    constructor
    · simp [polyValid_iff, hlen, hsym0, hsym1, hsym2]
    · simp [polyTaps, hsym0, hsym1, hsym2]

end Sys2Proof.Machine
end

section
/-! The length of a command left alone by the host (spec/40_commands.md R71): once CHECK has passed, `stepsLeft` is exact. -/

namespace Sys2Proof.Machine

/-- The sequencer is past CHECK: its steps are the encoder's or the decoder's. -/
def State.inDatapath (s : State) : Prop := s.phase ≠ .idle ∧ s.phase ≠ .check

/-- The last command has ended without an error (R76). -/
def State.succeeded (s : State) : Prop := s.phase = .idle ∧ s.done = true ∧ s.err = .ok

/-- Left alone from `s`, a command is BUSY for `n` steps and has then ended without an error. -/
def State.succeedsAfter (n : Nat) (s : State) : Prop :=
  (∀ k < n, ∃ u, runSteps k s = .next u ∧ u.busy = true) ∧ ∃ t, runSteps n s = .next t ∧ t.succeeded

theorem State.succeeded.succeedsAfter_zero {s : State} (h : s.succeeded) : s.succeedsAfter 0 :=
  ⟨fun _ hk => absurd hk (Nat.not_lt_zero _), s, rfl, h⟩

/-- A step from a BUSY state puts one step in front. -/
theorem State.succeedsAfter.of_step {n : Nat} {s u : State} (h : u.succeedsAfter n) (hbusy : s.busy = true)
    (hstep : step s = .next u) : s.succeedsAfter (n + 1) := by
  obtain ⟨hrunning, t, hlast, hend⟩ := h
  refine ⟨fun k hk => ?_, t, (runSteps_succ n hstep).trans hlast, hend⟩
  cases k with
  | zero => exact ⟨s, rfl, hbusy⟩
  | succ k =>
    rw [runSteps_succ k hstep]
    exact hrunning k (Nat.lt_of_succ_lt_succ hk)

/-- A datapath turn takes exactly one step off the bound, and stays in the datapath or ends the command without an error. -/
theorem TurnEffect.stepsLeft_of_inDatapath {s t : State} (h : TurnEffect s t) (hinv : s.Inv) (hrun : s.inDatapath) :
    s.stepsLeft = t.stepsLeft + 1 ∧ (t.inDatapath ∨ t.succeeded) := by
  cases h with
  | idle hphase => exact absurd hphase hrun.1
  | checkFails hphase | checkPassesEncode hphase | checkPassesDecode hphase => exact absurd hphase hrun.2
  | encodes hphase hlt | selectsSurvivors hphase hlt =>
    have hlt' := BitVec.lt_def.1 hlt
    refine ⟨?_, .inl (by simp [State.inDatapath, hphase])⟩
    simp only [State.stepsLeft, hphase, encoderStep_writes, encoderStep_keeps, acsStep_writes, acsStep_keeps,
      toNat_add_one_of_lt hlt]
    omega
  | entersSelect hphase hlast => exact ⟨by simp [State.stepsLeft, hphase, hlast], .inl (by simp [State.inDatapath])⟩
  | selectsBest hphase =>
    obtain ⟨-, -, -, hlast, -⟩ := (phaseSound_sel hphase).1 hinv.phase
    exact ⟨by simp [State.stepsLeft, hphase, hlast], .inl (by simp [State.inDatapath])⟩
  | tracesBack hphase hmore =>
    have hpos := toNat_ne_zero_of_ne hmore
    refine ⟨?_, .inl (by simp [State.inDatapath, hphase])⟩
    simp only [State.stepsLeft, hphase, tracebackStep_writes, tracebackStep_keeps, toNat_sub_one_of_ne hmore]
    omega
  | encodeCompletes hphase hlast | decodeCompletes hphase hlast =>
    exact ⟨by simp [State.stepsLeft, hphase, hlast], .inr ⟨rfl, rfl, rfl⟩⟩

/-- In the datapath, `stepsLeft` is the number of steps to the completion, and not only a bound on it. -/
theorem State.Undisturbed.succeedsAfter_stepsLeft {s : State} (h : s.Undisturbed) (hrun : s.inDatapath) :
    s.succeedsAfter s.stepsLeft := by
  induction hn : s.stepsLeft using Nat.strong_induction_on generalizing s with
  | _ n ih =>
    obtain ⟨t, ht, heffect, hundisturbed⟩ := h.next
    obtain ⟨hcount, hgoesOn⟩ := heffect.stepsLeft_of_inDatapath h.inv hrun
    have hrest : t.succeedsAfter t.stepsLeft := by
      obtain hdatapath | hend := hgoesOn
      · exact ih _ (by omega) hundisturbed hdatapath rfl
      · have hzero : t.stepsLeft = 0 := by simp [State.stepsLeft, hend.1]
        exact hzero ▸ hend.succeedsAfter_zero
    rw [← hn, hcount]
    exact hrest.of_step ((busy_eq_true_iff s).2 hrun.1) (h.step_eq.trans ht)

/-- ENC starts with LEN encoder steps and the completion to go (R71). -/
theorem stepsLeft_enterEncode (s : State) : (enterEncode s).stepsLeft = s.lenr.toNat + 1 := by
  simp [State.stepsLeft]

/-- ACS starts with LEN/2 steps of ACS and of TB, the two selections and the completion to go (R71). -/
theorem stepsLeft_enterDecode (s : State) : (enterDecode s).stepsLeft = 2 * (s.lenr.toNat / 2) + 3 := by
  have hcount : (enterDecode s).stepsLeft = (enterDecode s).nstep.toNat - 0 + (enterDecode s).nstep.toNat + 3 := rfl
  rw [hcount, toNat_enterDecode_nstep]
  omega

/-- A started command takes its CHECK step: an error completion, or the datapath with NSTEP + 1 (ENCODE) or 2*NSTEP + 3
(DECODE) steps left (R74). -/
theorem State.Started.check_step {s : State} (h : s.Started) :
    ∃ t, step s = .next t ∧ t.Undisturbed ∧
      (¬ s.passesCheck → t.phase = .idle ∧ t.done = true) ∧
      (s.passesCheck → t.inDatapath ∧
        t.stepsLeft + 1 = if s.opr = .encode then s.lenr.toNat + 2 else 2 * (s.lenr.toNat / 2) + 4) := by
  obtain ⟨t, ht, heffect, hundisturbed⟩ := h.undisturbed.next
  refine ⟨t, h.undisturbed.step_eq.trans ht, hundisturbed, ?_⟩
  cases heffect with
  | checkFails _ hopr herr =>
    have hfails : ¬ s.passesCheck := fun hpass => by simp [(checkError_eq_none_iff hopr).2 hpass] at herr
    exact ⟨fun _ => ⟨rfl, rfl⟩, fun hpass => absurd hpass hfails⟩
  | checkPassesEncode _ hopr hpass =>
    refine ⟨fun hfails => absurd hpass hfails, fun _ => ⟨by simp [State.inDatapath], ?_⟩⟩
    rw [stepsLeft_enterEncode, if_pos hopr]
  | checkPassesDecode _ hopr hpass =>
    refine ⟨fun hfails => absurd hpass hfails, fun _ => ⟨by simp [State.inDatapath], ?_⟩⟩
    rw [stepsLeft_enterDecode, if_neg (by simp [hopr])]
  | idle hphase | encodes hphase | encodeCompletes hphase | selectsSurvivors hphase | entersSelect hphase
  | selectsBest hphase | tracesBack hphase | decodeCompletes hphase => simp [h.phase] at hphase

/-- Settles O23: the CHECK step, then the datapath's `stepsLeft` more. -/
theorem commandStepCounts : Obligations.CommandStepCounts := by
  intro s hs
  obtain ⟨u, hstep, hundisturbed, hfail, hpass⟩ := hs.check_step
  refine ⟨fun hfails => ⟨u, runSteps_succ 0 hstep, hfail hfails⟩, fun hpasses n hn => ?_⟩
  obtain ⟨hrun, hcount⟩ := hpass hpasses
  have hbusy : s.busy = true := by simp [hs.phase]
  obtain ⟨hrunning, t, hlast, hend⟩ := (hundisturbed.succeedsAfter_stepsLeft hrun).of_step hbusy hstep
  rw [hn, ← hcount]
  exact ⟨hrunning, t, hlast, hend⟩

end Sys2Proof.Machine
end

section
/-! Successful completion (spec/40_commands.md R76), from each of the two phases that reach it. -/

namespace Sys2Proof.Machine

/-- Out of reset, the block's turn is the sequencer's (R70). -/
theorem blockTurn_of_rst {s : State} (hrst : s.rst = false) : blockTurn s = sequencerStep s := by
  simp [blockTurn, hrst]

/-- ENC completes at T = NSTEP (R88). -/
theorem sequencerStep_enc_last {s : State} (hphase : s.phase = .enc) (hlast : s.t = s.nstep) :
    sequencerStep s = .next (completeCommand s) := by
  simp only [sequencerStep, hphase, encPhase, if_pos hlast]

/-- TB completes at T = 0 (R103). -/
theorem sequencerStep_tb_zero {s : State} (hphase : s.phase = .tb) (hzero : s.t = 0) :
    sequencerStep s = .next (completeCommand s) := by
  simp only [sequencerStep, hphase, tbPhase, if_pos hzero]

/-- Settles O14: both phases complete alike, and OPR picks OUTLEN. -/
theorem successfulCompletion : Obligations.SuccessfulCompletion := by
  intro s hrst
  rw [blockTurn_of_rst hrst]
  constructor
  · intro hphase hopr hlast
    rw [sequencerStep_enc_last hphase hlast, completeCommand, if_pos hopr]
    rfl
  · intro hphase hopr hzero
    rw [sequencerStep_tb_zero hphase hzero, completeCommand, if_neg (by simp [hopr])]
    rfl

end Sys2Proof.Machine
end

section
/-! The issue of each command (spec/40_commands.md R69 to R79): the update `commandEffect` while idle, a dropped write while
BUSY, and which command a CMD write issues. -/

namespace Sys2Proof

/-- OP is the written value modulo 16 (R58). -/
theorem toNat_opField (w : Word) : (opField w).toNat = w.toNat % 16 := by
  simp [opField]

end Sys2Proof

namespace Sys2Proof.Machine

/-- While BUSY every command is dropped (R69, R49). -/
theorem exec_of_busy (i : Instr) {s : State} (hphase : s.phase ≠ .idle) : exec i s = .next s.withOverrun :=
  (exec_eq_issueCommand i s).trans (issueCommand_busy _ _ ((busy_eq_true_iff s).2 hphase))

/-- While idle every command makes its update (R69). -/
theorem exec_of_idle (i : Instr) {s : State} (hphase : s.phase = .idle) : exec i s = .next (commandEffect i s) :=
  (exec_eq_issueCommand i s).trans (issueCommand_idle _ _ ((busy_eq_false_iff s).2 hphase))

/-- A CMD write issues the command its OP names (R59, R69). -/
theorem writeCmd_eq_exec (v : Word) (s : State) : writeCmd v s = exec (commandOf (opField v)) s := by
  simp only [writeCmd, decode_leBytes, decodeWord_eq]

/-- The OP values from 4 on name the illegal commands (R59, R79). -/
theorem commandEffect_commandOf_reserved {op : BitVec 4} (h : 4 ≤ op.toNat) :
    commandEffect (commandOf op) = completeIllegal := by
  have hreserved : (∃ o, commandOf op = .illegal47 o) ∨ ∃ o, commandOf op = .illegal8F o := by
    revert op
    decide
  obtain ⟨o, ho⟩ | ⟨o, ho⟩ := hreserved
  · rw [ho, commandEffect]
  · rw [ho, commandEffect]

/-- Settles O10: the OP field picks the command, and the illegal ones make one update. -/
theorem cmdWriteIssuesCommand : Obligations.CmdWriteIssuesCommand := by
  intro s v
  have hissue (op : BitVec 4) (hop : v.toNat % 16 = op.toNat) : writeCmd v s = exec (commandOf op) s := by
    rw [writeCmd_eq_exec, BitVec.eq_of_toNat_eq ((toNat_opField v).trans hop)]
  refine ⟨fun hbusy => (writeCmd_eq_exec v s).trans (exec_of_busy _ hbusy), fun hidle =>
    ⟨fun hop => (hissue 0 hop).trans (exec_of_idle .nop hidle), hissue 1, hissue 2, hissue 3, fun hop => ?_⟩⟩
  rw [writeCmd_eq_exec, exec_of_idle _ hidle, commandEffect_commandOf_reserved (toNat_opField v ▸ hop)]
  rfl

/-- Traceback words depend on the memory and the era only. -/
theorem State.tbmWord_congr {s t : State} (hm : t.tbm = s.tbm) (he : t.era = s.era) (i : Nat) : t.tbmWord i = s.tbmWord i := by
  simp only [State.tbmWord, hm, he]

/-- Settles O11: a dropped command writes OVR only; an update's own writes are those the statement names, command by command. -/
theorem commandIssueFrame : Obligations.CommandIssueFrame := by
  intro i s
  by_cases hidle : s.phase = .idle
  · refine ⟨commandEffect i s, exec_of_idle i hidle, State.inByte_congr (by simp) (by simp),
      State.outByte_congr (by simp) (by simp), State.tbmWord_congr (by simp) (by simp), ?_⟩
    simp only [commandEffect_keeps, true_and]
    cases i <;> simp [commandEffect]
  · refine ⟨s.withOverrun, exec_of_busy i hidle, fun _ => rfl, fun _ => rfl, fun _ => rfl, ?_⟩
    simp [hidle]

/-- Settles O1: the access reaches CMD, and the write there runs what its bytes decode to. -/
theorem stepRunsDecodedCommand : Obligations.StepRunsDecodedCommand := by
  intro s data i rest hrst hinputs hdecode
  have htarget : accessTarget s.params (cmdWrite s.params data) = some (.register .cmd) :=
    (accessTarget_base_add ..).trans (offsetTarget_registerOffset ..)
  have hwrite : s.nextWrite (.register .cmd) .word data rest := ⟨hrst, _, hinputs, rfl, rfl, htarget⟩
  rw [step_of_nextWrite hwrite]
  simp only [busWrite, writeRegister, writeCmd, hdecode]
  rfl

/-- Settles O6: NOP's update is none. -/
theorem nopChangesNothing : Obligations.NopChangesNothing :=
  fun _ => ⟨exec_of_idle .nop, exec_of_busy .nop⟩

/-- A started command is BUSY with `irq` low (R73, R118). -/
theorem startCommand_busy_irq (op : Operation) (s : State) :
    (startCommand op s).busy = true ∧ (startCommand op s).irq = false := by
  simp [State.irq]

/-- Settles O7: both commands make the start's update, which raises BUSY and clears DONE. -/
theorem encodeAndDecodeStart : Obligations.EncodeAndDecodeStart := by
  intro s hidle
  refine ⟨exec_of_idle .encode hidle, exec_of_idle .decode hidle, ?_⟩
  rintro i t (rfl | rfl) hexec <;> cases (exec_of_idle _ hidle).symm.trans hexec
  · exact startCommand_busy_irq .encode s
  · exact startCommand_busy_irq .decode s

/-- Settles O8: CLEAR's update is the record of the fields it zeroes. -/
theorem clearZeroesResults : Obligations.ClearZeroesResults :=
  fun _ => ⟨exec_of_idle .clear, exec_of_busy .clear⟩

/-- An illegal command's completion leaves the block idle, with `irq` at IRQ_EN (R79, R118). -/
theorem completeIllegal_busy_irq {s : State} (hidle : s.phase = .idle) :
    (completeIllegal s).busy = false ∧ errorCode (completeIllegal s).err = 3 ∧ (completeIllegal s).irq = s.irqEn := by
  simp [State.irq, hidle, errorCode]

/-- Settles O9: both reserved rows make the illegal completion, whatever the OP. -/
theorem illegalCommandCompletes : Obligations.IllegalCommandCompletes := by
  intro s op hidle
  refine ⟨exec_of_idle _ hidle, exec_of_idle _ hidle, ?_⟩
  rintro i t (rfl | rfl) hexec <;> cases (exec_of_idle _ hidle).symm.trans hexec
  · exact completeIllegal_busy_irq hidle
  · exact completeIllegal_busy_irq hidle

end Sys2Proof.Machine
end

section
/-! The code as a function of the input bits (spec/42_encoder.md R84, R85, R90, R91): the walk of `encodeFrom` bit by bit, its
length, its behaviour on a concatenation, and its linearity over GF(2). -/

namespace Sys2Proof.Machine

/-- Settles O17: the eight edges, evaluated. -/
theorem defaultEdgeTable : Obligations.DefaultEdgeTable := by
  unfold Obligations.DefaultEdgeTable
  decide

@[simp] theorem encodeFrom_nil (g1 g2 : Taps) (s : TrellisState) : encodeFrom g1 g2 [] s = ([], s) := rfl

@[simp] theorem encodeFrom_cons (g1 g2 : Taps) (b : Bool) (bits : List Bool) (s : TrellisState) :
    encodeFrom g1 g2 (b :: bits) s =
      (generatorOutput b s g1 :: generatorOutput b s g2 :: (encodeFrom g1 g2 bits (successor s b)).1,
        (encodeFrom g1 g2 bits (successor s b)).2) := rfl

/-- Two code bits for each input bit (R91). -/
theorem length_encodeFrom (g1 g2 : Taps) (bits : List Bool) (s : TrellisState) :
    (encodeFrom g1 g2 bits s).1.length = 2 * bits.length := by
  induction bits generalizing s with
  | nil => rfl
  | cons b bits ih =>
    simp only [encodeFrom_cons, List.length_cons, ih]
    omega

/-- The walk over a concatenation goes on from the state the first part ends in (R90). -/
theorem encodeFrom_append (g1 g2 : Taps) (a b : List Bool) (s : TrellisState) :
    encodeFrom g1 g2 (a ++ b) s =
      ((encodeFrom g1 g2 a s).1 ++ (encodeFrom g1 g2 b (encodeFrom g1 g2 a s).2).1,
        (encodeFrom g1 g2 b (encodeFrom g1 g2 a s).2).2) := by
  induction a generalizing s with
  | nil => rfl
  | cons x a ih => simp only [List.cons_append, encodeFrom_cons, ih]

/-- A generator output is linear in the input bit and the state (R84). -/
theorem generatorOutput_xor (b b' : Bool) (s s' : TrellisState) (g : Taps) :
    generatorOutput (b ^^ b') (s ^^^ s') g = (generatorOutput b s g ^^ generatorOutput b' s' g) := by
  simp only [generatorOutput, trellisR1, trellisR2, BitVec.getLsbD_xor, Bool.and_xor_distrib_right, Bool.xor_assoc,
    Bool.xor_left_comm]

/-- The successor is linear in the input bit and the state (R17). -/
theorem successor_xor (b b' : Bool) (s s' : TrellisState) :
    successor (s ^^^ s') (b ^^ b') = successor s b ^^^ successor s' b' := by
  revert b b' s s'
  decide

/-- Linearity of the walk, from any two states (R91). -/
theorem encodeFrom_xor (g1 g2 : Taps) {a b : List Bool} (h : a.length = b.length) (s s' : TrellisState) :
    (encodeFrom g1 g2 (List.zipWith (fun x y => x ^^ y) a b) (s ^^^ s')).1 =
      List.zipWith (fun x y => x ^^ y) (encodeFrom g1 g2 a s).1 (encodeFrom g1 g2 b s').1 := by
  induction a generalizing b s s' with
  | nil => rfl
  | cons x a ih =>
    cases b with
    | nil => cases h
    | cons y b =>
      simp only [List.zipWith_cons_cons, encodeFrom_cons, generatorOutput_xor, successor_xor, ih (Nat.succ.inj h)]

@[simp] theorem length_encodeBits (bits : List Bool) (g1 g2 : Taps) : (encodeBits bits g1 g2).1.length = 2 * bits.length :=
  length_encodeFrom g1 g2 bits 0

/-- One more input bit adds the pair of the final state so far, and moves to its successor (R87, R90). -/
theorem encodeBits_concat (bits : List Bool) (b : Bool) (g1 g2 : Taps) :
    encodeBits (bits ++ [b]) g1 g2 =
      ((encodeBits bits g1 g2).1 ++
          [generatorOutput b (encodeBits bits g1 g2).2 g1, generatorOutput b (encodeBits bits g1 g2).2 g2],
        successor (encodeBits bits g1 g2).2 b) :=
  encodeFrom_append g1 g2 bits [b] 0

/-- A state's index is twice its `R1` plus its `R2` (R16). -/
theorem toNat_trellisState (b1 b2 : Bool) : (trellisState b1 b2).toNat = 2 * b1.toNat + b2.toNat := by
  revert b1 b2
  decide

/-- Two bits fill the register, whatever came before (R17). -/
theorem successor_successor (s : TrellisState) (x y : Bool) : successor (successor s x) y = trellisState y x := by
  simp [successor]

/-- Settles O48: the four laws are the walk's length, its linearity, its concatenation and the two bits its register holds. -/
theorem encoderFunctionLaws : Obligations.EncoderFunctionLaws := by
  intro g1 g2 a b
  refine ⟨length_encodeBits a g1 g2, fun hlen => encodeFrom_xor g1 g2 hlen 0 0, ?_, fun x y => ?_, fun x => ?_, rfl⟩
  · rw [encodeBits, encodeFrom_append]
    exact List.take_left' (length_encodeBits a g1 g2)
  · rw [List.append_cons, encodeBits_concat, encodeBits_concat, successor_successor, toNat_trellisState]
  · exact toNat_trellisState x false

end Sys2Proof.Machine
end

section
/-! The encoder (spec/42_encoder.md R86 to R90): the CHECK that enters it, its step, and the run of a whole ENCODE, which walks
the frame as `encodeBits` walks its bits. -/

namespace Sys2Proof.Machine

/-- Settles O13: with no error CHECK enters the phase of its operation, and NSTEP of DECODE is the length shifted down by one. -/
theorem checkPassEntersDatapath : Obligations.CheckPassEntersDatapath := by
  intro s hrst hphase hpass
  have hturn : blockTurn s = checkPhase s := by
    rw [blockTurn_of_rst hrst, sequencerStep, hphase]
  have hok : s.opr ≠ .none → checkError s = none := fun hopr => (checkError_eq_none_iff hopr).2 hpass
  refine ⟨fun hopr => ?_, fun hopr => ?_⟩
  · exact hturn.trans (checkPhase_encode hopr (hok (by simp [hopr])))
  · have hnstep : BitVec.ofNat 17 (s.lenr.toNat / 2) = s.lenr >>> 1 := by
      rw [← toNat_enterDecode_nstep]
      exact BitVec.ofNat_toNat 17 _
    rw [hturn, checkPhase_decode hopr (hok (by simp [hopr])), hnstep]
    rfl

/-- `bit` of a byte, where it is defined, says whether the byte is the symbol 1 (R62). -/
theorem symbolBit_eq_some {c : Byte} {b : Bool} (h : symbolBit c = some b) : b = decide (c = 0x31) := by
  unfold symbolBit at h
  split_ifs at h with hzero hone
  · cases h
    subst hzero
    rfl
  · cases h
    simp [hone]

/-- With T below NSTEP, ENC takes the encoder step on the bit of IN[T] (R87, R88). -/
theorem sequencerStep_enc_of_lt {s : State} (hinv : s.Inv) (hphase : s.phase = .enc) (hlt : s.t < s.nstep) :
    sequencerStep s = .next (encoderStep (decide (s.inByte s.t.toNat = 0x31)) s) := by
  obtain ⟨t, ht⟩ := encPhase_next hinv hphase
  simp only [sequencerStep, hphase, ht]
  obtain ⟨hlast, -⟩ | ⟨b, -, -, hbit, rfl⟩ := encPhase_cases ht
  · exact absurd hlast (BitVec.ne_of_lt hlt)
  · rw [symbolBit_eq_some hbit]

/-- A generator output in the encoder's state, written out with the register's bits (R84). -/
theorem generatorOutput_encState (b : Bool) (s : State) (g : Taps) :
    generatorOutput b s.encState g = (((b && g.g0) ^^ (s.r1 && g.g1)) ^^ (s.r2 && g.g2)) := by
  simp [generatorOutput, State.encState]

/-- Settles O18: the turn is `encoderStep`, whose writes to OUT are at 2T and 2T+1. -/
theorem encoderStep_spec : Obligations.EncoderStep := by
  intro s hinv hrst hphase hcount
  have hlt : s.t < s.nstep := BitVec.lt_def.2 hcount
  refine ⟨_, (blockTurn_of_rst hrst).trans (sequencerStep_enc_of_lt hinv hphase hlt), ?_, ?_, fun a hfirst hsecond => ?_,
    toNat_add_one_of_lt hlt, rfl⟩
  · rw [outByte_encoderStep, if_neg (by omega), if_pos rfl, generatorOutput_encState]
  · rw [outByte_encoderStep, if_pos rfl, generatorOutput_encState]
  · rw [outByte_encoderStep, if_neg hsecond, if_neg hfirst]

/-! ### A whole ENCODE -/

/-- Left alone, the block's step is the sequencer's, and it is left alone afterwards. -/
theorem State.Undisturbed.step_of_sequencerStep {s t : State} (h : s.Undisturbed) (ht : sequencerStep s = .next t) :
    step s = .next t ∧ t.Undisturbed := by
  obtain ⟨t', ht', -, hundisturbed⟩ := h.next
  cases ht.symm.trans ht'
  exact ⟨h.step_eq.trans ht, hundisturbed⟩

/-- A run one step longer takes its last step from where the shorter run ends. -/
theorem runSteps_succ_last {n : Nat} {s u : State} (h : runSteps n s = .next u) : runSteps (n + 1) s = runSteps 1 u := by
  induction n generalizing s with
  | zero =>
    cases h
    rfl
  | succ n ih =>
    obtain ⟨v, hstep, hrest⟩ := runSteps_succ_eq_next h
    rw [runSteps_succ _ hstep, ih hrest]

/-- `u` is `v`, a block at the start of ENC, after `n` encoder steps: OUT and the shift register hold the code of the first `n`
bits of the frame, and nothing else but T has changed. -/
structure EncodedPrefix (v : State) (n : Nat) (u : State) : Prop where
  count : u.t.toNat = n
  register : u.encState = (encodeBits (v.frameBits n) v.tap1 v.tap2).2
  out : ∀ i, u.outByte i = ((encodeBits (v.frameBits n) v.tap1 v.tap2).1[i]?.map symbolOf).getD (v.outByte i)
  frame : u = { v with r1 := u.r1, r2 := u.r2, t := u.t, outBuf := u.outBuf }

/-- What the encoder steps leave as the start of ENC had it. -/
theorem EncodedPrefix.keeps {v u : State} {n : Nat} (h : EncodedPrefix v n u) :
    u.tap1 = v.tap1 ∧ u.tap2 = v.tap2 ∧ u.pmv = v.pmv ∧ u.pmw = v.pmw ∧ u.tbm = v.tbm ∧ u.tbs = v.tbs ∧ u.bestr = v.bestr ∧
    u.phase = v.phase ∧ u.opr = v.opr ∧ u.nstep = v.nstep ∧ u.ovr = v.ovr ∧ u.irqEn = v.irqEn ∧ u.lenr = v.lenr ∧
    u.poly1r = v.poly1r ∧ u.poly2r = v.poly2r ∧ u.inBuf = v.inBuf ∧ u.era = v.era := by
  rw [h.frame]
  simp

theorem encodedPrefix_zero {v : State} (ht : v.t = 0) (hregister : v.encState = 0) : EncodedPrefix v 0 v where
  count := by rw [ht]; rfl
  register := hregister
  out := fun _ => rfl
  frame := rfl

/-- The state the encoder step leaves is the successor of the old one (R87). -/
theorem encState_encoderStep (b : Bool) (s : State) : (encoderStep b s).encState = successor s.encState b := by
  simp [State.encState, successor]

/-- A list with two more elements, read at an index. -/
theorem getElem?_append_pair (bits : List Bool) (x y : Bool) (i : Nat) :
    (bits ++ [x, y])[i]? = if i = bits.length + 1 then some y else if i = bits.length then some x else bits[i]? := by
  grind

/-- One encoder step takes the code of `n` bits to the code of `n + 1` bits (R87, R90). -/
theorem EncodedPrefix.encoderStep {v u : State} {n : Nat} (h : EncodedPrefix v n u) (hlt : u.t < u.nstep) :
    EncodedPrefix v (n + 1) (encoderStep (decide (u.inByte u.t.toNat = 0x31)) u) := by
  have ⟨hcount, hregister, hout, hframe⟩ := h
  have hin : u.inByte n = v.inByte n := State.inByte_congr (by simp [h.keeps]) (by simp [h.keeps]) n
  have hlength : (encodeBits (v.frameBits n) v.tap1 v.tap2).1.length = 2 * n := by simp
  rw [hcount, hin]
  constructor
  case count => exact (toNat_add_one_of_lt hlt).trans (congrArg (· + 1) hcount)
  case register => rw [encState_encoderStep, hregister, State.frameBits, encodeBits_concat]
  case out =>
    intro i
    rw [outByte_encoderStep, State.frameBits, encodeBits_concat, getElem?_append_pair, hlength, hcount, hregister, hout]
    simp only [h.keeps]
    split
    · rfl
    split <;> rfl
  case frame =>
    rw [hframe]
    rfl

/-- ENC starts with the shift register at 00 (R86). -/
theorem encState_enterEncode (s : State) : (enterEncode s).encState = 0 := by
  simp [State.encState, trellisState]

/-- Left alone in ENC, the block codes the first `n` bits of its frame in `n` steps, up to NSTEP of them (R88). -/
theorem runSteps_enc {v : State} (hv : v.Undisturbed) (hphase : v.phase = .enc) (ht : v.t = 0)
    (hregister : v.encState = 0) {n : Nat} (hn : n ≤ v.nstep.toNat) :
    ∃ u, runSteps n v = .next u ∧ u.Undisturbed ∧ EncodedPrefix v n u := by
  induction n with
  | zero => exact ⟨v, rfl, hv, encodedPrefix_zero ht hregister⟩
  | succ n ih =>
    obtain ⟨u, hrun, hu, hcoded⟩ := ih (Nat.le_of_succ_le hn)
    have hlt : u.t < u.nstep := by simpa [BitVec.lt_def, hcoded.count, hcoded.keeps] using hn
    obtain ⟨hstep, hundisturbed⟩ :=
      hu.step_of_sequencerStep (sequencerStep_enc_of_lt hu.inv (by simp [hcoded.keeps, hphase]) hlt)
    exact ⟨_, (runSteps_succ_last hrun).trans (runSteps_succ 0 hstep), hundisturbed, hcoded.encoderStep hlt⟩

/-- An ENCODE that passes CHECK completes after LEN + 2 steps, from a state in which the encoder has coded the whole frame
(R71, R74, R88). -/
theorem runSteps_encode {s : State} (hs : s.Started) (hopr : s.opr = .encode) (hpass : s.passesCheck) :
    ∃ u, runSteps (s.lenr.toNat + 2) s = .next (completeCommand u) ∧ EncodedPrefix (enterEncode s) s.lenr.toNat u := by
  have hcheck : sequencerStep s = .next (enterEncode s) := by
    simp only [sequencerStep, hs.phase]
    exact checkPhase_encode hopr ((checkError_eq_none_iff (by simp [hopr])).2 hpass)
  obtain ⟨hstart, hv⟩ := hs.undisturbed.step_of_sequencerStep hcheck
  obtain ⟨u, hrun, hu, hcoded⟩ := runSteps_enc hv rfl rfl (encState_enterEncode s) (n := s.lenr.toNat) le_rfl
  have hlast : u.t = u.nstep := BitVec.eq_of_toNat_eq (by simp [hcoded.count, hcoded.keeps])
  obtain ⟨hend, -⟩ := hu.step_of_sequencerStep (sequencerStep_enc_last (by simp [hcoded.keeps]) hlast)
  exact ⟨u, (runSteps_succ _ hstart).trans ((runSteps_succ_last hrun).trans (runSteps_succ 0 hend)), hcoded⟩

/-- The doubled length of a frame that fits N_MAX fits OUTLEN's 17 bits (R7, R32). -/
theorem toNat_two_mul_lenr {s : State} (hinv : s.Inv) (hfits : s.lenr.toNat ≤ s.params.nMax) :
    (2 * s.lenr).toNat = 2 * s.lenr.toNat := by
  have hrange := (Params.ok_iff _).1 hinv.params
  bv_omega

/-- The frame's bits depend on IN and the era only. -/
theorem State.frameBits_congr {s t : State} (hb : t.inBuf = s.inBuf) (he : t.era = s.era) (n : Nat) :
    t.frameBits n = s.frameBits n := by
  induction n with
  | zero => rfl
  | succ n ih => rw [State.frameBits, State.frameBits, ih, State.inByte_congr hb he]

/-- Settles O24: `EncodedPrefix` at n = LEN is the code of the whole frame, and the completion writes the flags, PHASE, OPR and
OUTLEN only. -/
theorem encodeComputesCode : Obligations.EncodeComputesCode := by
  intro s hs hopr hpass
  have ⟨⟨hfits, _⟩, _, _⟩ := hpass
  obtain ⟨u, hrun, hcoded⟩ := runSteps_encode hs hopr hpass
  have ⟨_, hregister, hout, _⟩ := hcoded
  have hkeeps := hcoded.keeps
  simp only [enterEncode_keeps, enterEncode_writes] at hkeeps
  have hbits : (enterEncode s).frameBits s.lenr.toNat = s.frameBits s.lenr.toNat := State.frameBits_congr (by simp) (by simp) _
  simp only [hbits, enterEncode_writes] at hregister hout
  have hlength : (encodeBits (s.frameBits s.lenr.toNat) (polyTaps s.poly1r) (polyTaps s.poly2r)).1.length =
      2 * s.lenr.toNat := by simp
  refine ⟨completeCommand u, hrun, rfl, rfl, rfl, ?_, hlength, fun i b hb => ?_, hregister, fun i hi => ?_,
    State.inByte_congr (by simp [hkeeps]) (by simp [hkeeps]), State.tbmWord_congr (by simp [hkeeps]) (by simp [hkeeps]), ?_⟩
  · simpa [hkeeps, hopr] using toNat_two_mul_lenr hs.inv (hfits hopr)
  · exact (hout i).trans (by rw [hb]; rfl)
  · exact (hout i).trans (by rw [List.getElem?_eq_none (hlength ▸ hi)]; rfl)
  · simp [hkeeps]

end Sys2Proof.Machine
end

section
/-! The decoder's phases (spec/43_viterbi.md): the add-compare-select step (R95), the final selection (R101) and the traceback
step (R102). -/

namespace Sys2Proof.Machine

/-! ### The final selection -/

/-- Whether a state's metric is finite and no finite metric undercuts it (R101). -/
def minimalAt (m : PerState (Option Nat)) (k : TrellisState) : Bool :=
  match atState m k with
  | none => false
  | some v => trellisStates.all fun j =>
      match atState m j with
      | none => true
      | some w => decide (v ≤ w)

theorem bestState_eq_find? (m : PerState (Option Nat)) : bestState m = trellisStates.find? (minimalAt m) := rfl

theorem minimalAt_iff (m : PerState (Option Nat)) (k : TrellisState) :
    minimalAt m k = true ↔ ∃ v, atState m k = some v ∧ ∀ j w, atState m j = some w → v ≤ w := by
  unfold minimalAt
  cases atState m k with
  | none => simp
  | some v =>
    simp only [List.all_eq_true, mem_trellisStates, true_imp_iff, Option.some.injEq, exists_eq_left']
    refine forall_congr' fun j => ?_
    cases atState m j <;> simp

/-- The best state is finite and minimal, and every lower-numbered finite state is strictly larger (R101). -/
theorem bestState_eq_some {m : PerState (Option Nat)} {k : TrellisState} (h : bestState m = some k) :
    ∃ v, atState m k = some v ∧ (∀ j w, atState m j = some w → v ≤ w) ∧
      ∀ j w, j.toNat < k.toNat → atState m j = some w → v < w := by
  rw [bestState_eq_find?] at h
  obtain ⟨hk, before, after, hsplit, hbefore⟩ := List.find?_eq_some_iff_append.1 h
  obtain ⟨v, hv, hmin⟩ := (minimalAt_iff m k).1 hk
  have hrising : (before ++ k :: after).Pairwise fun a b => a.toNat < b.toNat := hsplit ▸ by decide
  refine ⟨v, hv, hmin, fun j w hlt hj => lt_of_not_ge fun hge => ?_⟩
  obtain ⟨-, hfrom, -⟩ := List.pairwise_append.1 hrising
  obtain ⟨hafter, -⟩ := List.pairwise_cons.1 hfrom
  have hmem : j ∈ before := by
    have hlisted : j ∈ before ++ k :: after := hsplit ▸ mem_trellisStates j
    obtain hmem | rfl | hmem := (List.mem_append.1 hlisted).imp_right List.mem_cons.1
    · exact hmem
    · exact absurd hlt (lt_irrefl _)
    · exact absurd hlt (hafter j hmem).asymm
  have hminimal : minimalAt m j = true := (minimalAt_iff m j).2 ⟨w, hj, fun i x hi => hge.trans (hmin i x hi)⟩
  simpa [hminimal] using hbefore j hmem

theorem State.metric_eq_some_iff (s : State) (k : TrellisState) (v : Nat) :
    s.metric k = some v ↔ atState s.pmv k = true ∧ (atState s.pmw k).toNat = v := by
  simp [State.metric]

theorem State.metric_eq_none_iff (s : State) (k : TrellisState) : s.metric k = none ↔ atState s.pmv k = false := by
  simp [State.metric]

theorem sequencerStep_sel {s : State} {k : TrellisState} (hphase : s.phase = .sel)
    (hbest : bestState (perState s.metric) = some k) : sequencerStep s = .next (selectBest k s) := by
  simp only [sequencerStep, hphase, selPhase, hbest]

/-- Settles O21: the turn is `selectBest` of the best state, which `bestState_eq_some` describes. -/
theorem finalSelection : Obligations.FinalSelection := by
  intro s hrst hphase ⟨k₀, hfinite⟩
  obtain ⟨k, hk⟩ := exists_bestState (m := perState s.metric) (k₀ := k₀) (by simp [State.metric, hfinite])
  obtain ⟨v, hv, hmin, hfirst⟩ := bestState_eq_some hk
  simp only [atState_perState, State.metric_eq_some_iff] at hv hmin hfirst
  obtain ⟨hvalid, rfl⟩ := hv
  exact ⟨k, (blockTurn_of_rst hrst).trans (sequencerStep_sel hphase hk), hvalid, fun j hj => hmin j _ ⟨hj, rfl⟩,
    fun j hlt hj => hfirst j _ hlt ⟨hj, rfl⟩⟩

/-! ### The traceback step -/

/-- With T above 0, TB takes the traceback step (R103). -/
theorem sequencerStep_tb_of_ne {s : State} (hinv : s.Inv) (hphase : s.phase = .tb) (hmore : s.t ≠ 0) :
    sequencerStep s = .next (tracebackStep s) := by
  obtain ⟨t, ht⟩ := tbPhase_next hinv hphase
  simp only [sequencerStep, hphase, ht]
  obtain ⟨hzero, -⟩ | ⟨-, -, rfl⟩ := tbPhase_cases ht
  · exact absurd hzero hmore
  · rfl

/-- A predecessor's index is twice the state's `R2` plus its own (R17, R102). -/
theorem toNat_predecessor (d : TrellisState) (r : Bool) :
    (predecessor d r).toNat = 2 * (d.getLsbD 0).toNat + r.toNat := toNat_trellisState _ _

/-- Settles O22: the turn is `tracebackStep`, whose only write to OUT is at T-1. -/
theorem tracebackStep_spec : Obligations.TracebackStep := by
  intro s hinv hrst hphase hcount
  have hmore : s.t ≠ 0 := fun hzero => hcount (by simp [hzero])
  refine ⟨_, (blockTurn_of_rst hrst).trans (sequencerStep_tb_of_ne hinv hphase hmore), ?_, fun a ha => ?_,
    toNat_predecessor _ _, toNat_sub_one_of_ne hmore, rfl⟩
  · rw [outByte_tracebackStep, if_pos rfl]
    rfl
  · rw [outByte_tracebackStep, if_neg ha]

/-! ### The add-compare-select step -/

theorem sequencerStep_acs_last {s : State} (hphase : s.phase = .acs) (hlast : s.t = s.nstep) :
    sequencerStep s = .next (enterSelect s) := by
  simp only [sequencerStep, hphase, acsPhase, if_pos hlast]

/-- With T below NSTEP, ACS takes the add-compare-select step on the bits of IN[2T] and IN[2T+1], and every new metric fits its
entry (R95, R99, R100). -/
theorem sequencerStep_acs_of_lt {s : State} (hinv : s.Inv) (hphase : s.phase = .acs) (hlt : s.t < s.nstep) :
    sequencerStep s = .next (acsStep (decide (s.inByte (2 * s.t.toNat) = 0x31))
      (decide (s.inByte (2 * s.t.toNat + 1) = 0x31)) s) ∧
    ∀ d, metricFits (acsDestination s (decide (s.inByte (2 * s.t.toNat) = 0x31))
      (decide (s.inByte (2 * s.t.toNat + 1) = 0x31)) d).1 = true := by
  obtain ⟨t, ht⟩ := acsPhase_next hinv hphase
  simp only [sequencerStep, hphase, ht]
  obtain ⟨hlast, -⟩ | ⟨r0, r1, -, -, h0, h1, hfits, rfl⟩ := acsPhase_cases ht
  · exact absurd hlast (BitVec.ne_of_lt hlt)
  · rw [← symbolBit_eq_some h0, ← symbolBit_eq_some h1]
    exact ⟨rfl, hfits⟩

/-- The metrics an add-compare-select step leaves are the destinations' own, when they fit their entries (R95, R99). -/
theorem metric_acsStep {s : State} {r0 r1 : Bool} (hfits : ∀ d, metricFits (acsDestination s r0 r1 d).1 = true)
    (d : TrellisState) : (acsStep r0 r1 s).metric d = (acsDestination s r0 r1 d).1 := by
  have hfit := hfits d
  cases hc : (acsDestination s r0 r1 d).1 with
  | none => simp [State.metric, hc]
  | some c =>
    simp only [hc, metricFits, decide_eq_true_eq] at hfit
    rw [State.metric_eq_some_iff]
    simpa [hc] using hfit

/-- A source offers its metric plus the branch metric of the edge, when that metric is finite (R95). -/
theorem acsCandidate_eq_some_iff (s : State) (r0 r1 : Bool) (d : TrellisState) (r : Bool) (c : Nat) :
    acsCandidate s r0 r1 d r = some c ↔ atState s.pmv (predecessor d r) = true ∧
      (atState s.pmw (predecessor d r)).toNat + branchMetric s.tap1 s.tap2 (predecessor d r) (trellisR1 d) r0 r1 = c := by
  simp [acsCandidate, State.metric]

/-- An INF source offers nothing (R95). -/
theorem acsCandidate_eq_none_iff (s : State) (r0 r1 : Bool) (d : TrellisState) (r : Bool) :
    acsCandidate s r0 r1 d r = none ↔ atState s.pmv (predecessor d r) = false := by
  simp [acsCandidate, State.metric]

/-- The first source is taken when it is finite and the second is no smaller (R97). -/
theorem acsSelect_first {c0 : Nat} {second : Option Nat} (h : ∀ c1, second = some c1 → c0 ≤ c1) :
    acsSelect (some c0) second = (some c0, false) := by
  cases second with
  | none => rfl
  | some c1 => exact if_pos (h c1 rfl)

/-- The second source is taken when it is finite and the first is not as small (R97). -/
theorem acsSelect_second {c1 : Nat} {first : Option Nat} (h : ∀ c0, first = some c0 → c1 < c0) :
    acsSelect first (some c1) = (some c1, true) := by
  cases first with
  | none => rfl
  | some c0 => exact if_neg (Nat.not_le.2 (h c0 rfl))

/-- What the step leaves for a destination: its metric entry, and its decision bit in word T (R95). -/
theorem acsStep_entry {s : State} {r0 r1 : Bool} (hfits : ∀ d, metricFits (acsDestination s r0 r1 d).1 = true)
    {d : TrellisState} {m : Option Nat} {r : Bool} (h : acsDestination s r0 r1 d = (m, r)) :
    atState (acsStep r0 r1 s).pmv d = m.isSome ∧ (atState (acsStep r0 r1 s).pmw d).toNat = m.getD 0 ∧
      atState ((acsStep r0 r1 s).tbmWord s.t.toNat) d = r := by
  have hmetric := metric_acsStep hfits d
  rw [h] at hmetric
  refine ⟨by simp [h], ?_, by simp [tbmWord_acsStep, h]⟩
  cases m with
  | none => simp [h]
  | some c => exact ((State.metric_eq_some_iff _ _ _).1 hmetric).2

theorem predecessor_eq_ofNat (d : TrellisState) (r : Bool) :
    predecessor d r = BitVec.ofNat 2 (2 * (d.getLsbD 0).toNat + r.toNat) := by
  revert d r
  decide

/-- Settles O20: the turn is `acsStep`, and the three outcomes at a destination are those of `acsSelect` on its candidates. -/
theorem addCompareSelectStep : Obligations.AddCompareSelectStep := by
  intro s hinv hrst hphase
  refine ⟨fun hlast => (blockTurn_of_rst hrst).trans (sequencerStep_acs_last hphase hlast), fun hcount => ?_⟩
  have hlt : s.t < s.nstep := BitVec.lt_def.2 hcount
  obtain ⟨hturn, hfits⟩ := sequencerStep_acs_of_lt hinv hphase hlt
  refine ⟨_, (blockTurn_of_rst hrst).trans hturn, toNat_add_one_of_lt hlt, fun w hw => ?_, rfl, fun d => ?_⟩
  · rw [tbmWord_acsStep, if_neg hw]
  intro r0 r1 y cand p0 p1
  have hp0 : p0 = predecessor d false := (predecessor_eq_ofNat d false).symm
  have hp1 : p1 = predecessor d true := (predecessor_eq_ofNat d true).symm
  have hcand : ∀ r c, acsCandidate s r0 r1 d r = some c ↔
      atState s.pmv (predecessor d r) = true ∧ cand (predecessor d r) = c := acsCandidate_eq_some_iff s r0 r1 d
  have hinf : ∀ r, acsCandidate s r0 r1 d r = none ↔ atState s.pmv (predecessor d r) = false :=
    acsCandidate_eq_none_iff s r0 r1 d
  rw [hp0, hp1]
  refine ⟨fun hfinite hle => ?_, fun hfinite hlt => ?_, fun hinf0 hinf1 => ?_⟩
  · refine acsStep_entry hfits (m := some _) ?_
    rw [acsDestination, (hcand false _).2 ⟨hfinite, rfl⟩]
    refine acsSelect_first fun c1 hc1 => ?_
    obtain ⟨hvalid, rfl⟩ := (hcand true c1).1 hc1
    exact hle hvalid
  · refine acsStep_entry hfits (m := some _) ?_
    rw [acsDestination, (hcand true _).2 ⟨hfinite, rfl⟩]
    refine acsSelect_second fun c0 hc0 => ?_
    obtain ⟨hvalid, rfl⟩ := (hcand false c0).1 hc0
    exact hlt hvalid
  · refine acsStep_entry hfits (m := none) ?_
    rw [acsDestination, (hinf false).2 hinf0, (hinf true).2 hinf1]
    rfl

end Sys2Proof.Machine
end

section
/-! The document's decoder (spec/43_viterbi.md R106), one time step at a time: what the eight edges of a step leave at each
destination, by which the path-storing form and the hardware's add-compare-select step make the same choice (R95, R97, R105). -/

namespace Sys2Proof.Machine

/-- What an edge of R106's inner loop offers its destination; `none` when its source is INF. -/
def edgeCandidate (g1 g2 : Taps) (r0 r1 : Bool) (old : PerState Survivor) (s : TrellisState) (b : Bool) : Survivor :=
  (atState old s).map fun m => (m.1 + branchMetric g1 g2 s b r0 r1, m.2 ++ [b])

/-- Of two survivors the second, where the hardware's selection takes the second metric (R97). -/
def selectSurvivor (first second : Survivor) : Survivor :=
  if (acsSelect (first.map Prod.fst) (second.map Prod.fst)).2 then second else first

@[simp] theorem selectSurvivor_none_left (second : Survivor) : selectSurvivor none second = second := by
  cases second <;> rfl

@[simp] theorem selectSurvivor_none_right (first : Survivor) : selectSurvivor first none = first := by
  cases first <;> rfl

theorem selectSurvivor_some (m m' : Nat) (path path' : List Bool) :
    selectSurvivor (some (m, path)) (some (m', path')) = if m ≤ m' then some (m, path) else some (m', path') := by
  simp only [selectSurvivor, Option.map_some, acsSelect]
  split <;> simp

/-- The edge's candidate stands against what its destination holds; the other entries stay (R106). -/
theorem atState_relaxEdge (g1 g2 : Taps) (r0 r1 : Bool) (old new : PerState Survivor) (s d : TrellisState) (b : Bool) :
    atState (relaxEdge g1 g2 r0 r1 old s b new) d =
      if d = successor s b then selectSurvivor (atState new d) (edgeCandidate g1 g2 r0 r1 old s b) else atState new d := by
  unfold relaxEdge edgeCandidate
  cases atState old s with
  | none => simp
  | some entry =>
    obtain ⟨m, path⟩ := entry
    by_cases hd : d = successor s b
    · subst hd
      cases hnew : atState new (successor s b) with
      | none => simp
      | some entry' =>
        obtain ⟨m', path'⟩ := entry'
        by_cases hlt : m + branchMetric g1 g2 s b r0 r1 < m'
        · simp [selectSurvivor_some, hlt, Nat.not_le.2 hlt]
        · simp [hnew, selectSurvivor_some, hlt, Nat.not_lt.1 hlt]
    · simp [hd]

/-- A time step leaves at each destination the choice between the candidates of its two sources, `R2 = 0` first (R94, R97). -/
theorem atState_decodeStep (g1 g2 : Taps) (r0 r1 : Bool) (old : PerState Survivor) (d : TrellisState) :
    atState (decodeStep g1 g2 r0 r1 old) d =
      selectSurvivor (edgeCandidate g1 g2 r0 r1 old (predecessor d false) (trellisR1 d))
        (edgeCandidate g1 g2 r0 r1 old (predecessor d true) (trellisR1 d)) := by
  simp only [decodeStep, trellisStates, List.foldl_cons, List.foldl_nil, atState_relaxEdge, atState_perState]
  revert d
  rw [trellis_forall]
  refine ⟨?_, ?_, ?_, ?_⟩ <;> simp [successor, predecessor, trellisState, trellisR1, trellisR2]

/-- Where a survivor is `none` the other is selected, and of two the smaller metric, so none undercuts the selected one. -/
theorem selectSurvivor_le {first second : Survivor} {m : Nat} {path : List Bool}
    (h : first = some (m, path) ∨ second = some (m, path)) :
    ∃ m' path', selectSurvivor first second = some (m', path') ∧ m' ≤ m := by
  cases first with
  | none => exact ⟨m, path, by simpa using h, le_rfl⟩
  | some entry =>
    cases second with
    | none => exact ⟨m, path, by simpa using h, le_rfl⟩
    | some entry' =>
      obtain ⟨m₁, path₁⟩ := entry
      obtain ⟨m₂, path₂⟩ := entry'
      rw [selectSurvivor_some]
      by_cases hle : m₁ ≤ m₂
      · refine ⟨m₁, path₁, if_pos hle, ?_⟩
        obtain hfirst | hsecond := h
        · cases hfirst; exact le_rfl
        · cases hsecond; exact hle
      · refine ⟨m₂, path₂, if_neg hle, ?_⟩
        obtain hfirst | hsecond := h
        · cases hfirst; exact (Nat.not_le.1 hle).le
        · cases hsecond; exact le_rfl

theorem selectSurvivor_cases (first second : Survivor) :
    selectSurvivor first second = first ∨ selectSurvivor first second = second := by
  unfold selectSurvivor
  split
  · exact .inr rfl
  · exact .inl rfl

theorem edgeCandidate_eq_some_iff {g1 g2 : Taps} {r0 r1 : Bool} {old : PerState Survivor} {s : TrellisState} {b : Bool}
    {m : Nat} {path : List Bool} :
    edgeCandidate g1 g2 r0 r1 old s b = some (m, path) ↔
      ∃ m₀ path₀, atState old s = some (m₀, path₀) ∧ m₀ + branchMetric g1 g2 s b r0 r1 = m ∧ path₀ ++ [b] = path := by
  simp [edgeCandidate]

/-- A survivor after a time step extends a survivor of one of its two sources by its own `R1` (R95, R106). -/
theorem exists_source_of_decodeStep {g1 g2 : Taps} {r0 r1 : Bool} {old : PerState Survivor} {d : TrellisState} {m : Nat}
    {path : List Bool} (h : atState (decodeStep g1 g2 r0 r1 old) d = some (m, path)) :
    ∃ s m₀ path₀, successor s (trellisR1 d) = d ∧ atState old s = some (m₀, path₀) ∧
      m₀ + branchMetric g1 g2 s (trellisR1 d) r0 r1 = m ∧ path₀ ++ [trellisR1 d] = path := by
  rw [atState_decodeStep] at h
  obtain ⟨r, hr⟩ : ∃ r, edgeCandidate g1 g2 r0 r1 old (predecessor d r) (trellisR1 d) = some (m, path) := by
    obtain hfirst | hsecond := selectSurvivor_cases _ _
    · exact ⟨false, hfirst.symm.trans h⟩
    · exact ⟨true, hsecond.symm.trans h⟩
  obtain ⟨m₀, path₀, hold, hm, hpath⟩ := edgeCandidate_eq_some_iff.1 hr
  exact ⟨predecessor d r, m₀, path₀, (successor_eq_iff _ _ _).2 ⟨rfl, by simp [predecessor]⟩, hold, hm, hpath⟩

/-- No edge out of a finite state undercuts what a time step leaves at its destination (R95, R106). -/
theorem decodeStep_le {g1 g2 : Taps} {old : PerState Survivor} {s : TrellisState} {m₀ : Nat} {path₀ : List Bool}
    (r0 r1 b : Bool) (h : atState old s = some (m₀, path₀)) :
    ∃ m path, atState (decodeStep g1 g2 r0 r1 old) (successor s b) = some (m, path) ∧
      m ≤ m₀ + branchMetric g1 g2 s b r0 r1 := by
  have hedge : edgeCandidate g1 g2 r0 r1 old s b = some (m₀ + branchMetric g1 g2 s b r0 r1, path₀ ++ [b]) :=
    edgeCandidate_eq_some_iff.2 ⟨m₀, path₀, h, rfl, rfl⟩
  obtain ⟨hb, hs⟩ := (successor_eq_iff s (successor s b) b).1 rfl
  rw [atState_decodeStep, ← hb]
  refine selectSurvivor_le (path := path₀ ++ [b]) ?_
  cases hr : trellisR2 s <;> rw [hr] at hs
  · exact .inl (hs ▸ hedge)
  · exact .inr (hs ▸ hedge)

/-! ### Hamming distances -/

@[simp] theorem hammingDistance_nil : hammingDistance [] [] = 0 := rfl

@[simp] theorem hammingDistance_cons (x y : Bool) (a b : List Bool) :
    hammingDistance (x :: a) (y :: b) = (x ^^ y).toNat + hammingDistance a b := by
  simp only [hammingDistance, List.zipWith_cons_cons, List.count_cons, beq_true]
  rw [Nat.add_comm]
  cases x ^^ y <;> rfl

theorem hammingDistance_append {a b : List Bool} (h : a.length = b.length) (c d : List Bool) :
    hammingDistance (a ++ c) (b ++ d) = hammingDistance a b + hammingDistance c d := by
  rw [hammingDistance, List.zipWith_append h, List.count_append]
  rfl

@[simp] theorem hammingDistance_self (a : List Bool) : hammingDistance a a = 0 := by
  induction a with
  | nil => rfl
  | cons x a ih => simp [ih]

theorem eq_of_hammingDistance_eq_zero {a b : List Bool} (hlen : a.length = b.length) (h : hammingDistance a b = 0) : a = b := by
  induction a generalizing b with
  | nil => exact (List.length_eq_zero_iff.1 hlen.symm).symm
  | cons x a ih =>
    cases b with
    | nil => cases hlen
    | cons y b =>
      obtain ⟨hxy, hrest⟩ := Nat.add_eq_zero_iff.1 ((hammingDistance_cons x y a b).symm.trans h)
      rw [ih (Nat.succ.inj hlen) hrest]
      cases x <;> cases y <;> simp_all

/-- The pair of an edge is at its branch metric from the received pair (R93). -/
theorem hammingDistance_pair (g1 g2 : Taps) (p : TrellisState) (b r0 r1 : Bool) :
    hammingDistance [r0, r1] [generatorOutput b p g1, generatorOutput b p g2] = branchMetric g1 g2 p b r0 r1 := by
  simp [branchMetric]

/-! ### Optimality -/

/-- How far an input's code word is from the received sequence. -/
def codeDistance (g1 g2 : Taps) (coded bits : List Bool) : Nat := hammingDistance coded (encodeBits bits g1 g2).1

/-- One more input bit adds the branch metric of the edge it takes (R87, R93). -/
theorem codeDistance_concat (g1 g2 : Taps) {coded bits : List Bool} (hlen : 2 * bits.length = coded.length) (b r0 r1 : Bool) :
    codeDistance g1 g2 (coded ++ [r0, r1]) (bits ++ [b]) =
      codeDistance g1 g2 coded bits + branchMetric g1 g2 (encodeBits bits g1 g2).2 b r0 r1 := by
  rw [codeDistance, encodeBits_concat, hammingDistance_append (by simp [hlen]), hammingDistance_pair]
  rfl

/-- The survivors after the pairs of `coded`: each is an input that ends in its state, at the distance its metric says, and no
input that ends there is nearer (R99, R105). -/
structure Survivors (g1 g2 : Taps) (coded : List Bool) (m : PerState Survivor) : Prop where
  path : ∀ {d v bits}, atState m d = some (v, bits) →
    2 * bits.length = coded.length ∧ (encodeBits bits g1 g2).2 = d ∧ codeDistance g1 g2 coded bits = v
  nearest : ∀ {bits}, 2 * bits.length = coded.length →
    ∃ v bits', atState m (encodeBits bits g1 g2).2 = some (v, bits') ∧ v ≤ codeDistance g1 g2 coded bits

theorem atState_decodeInit_eq_some_iff {d : TrellisState} {v : Nat} {bits : List Bool} :
    atState decodeInit d = some (v, bits) ↔ d = 0 ∧ v = 0 ∧ bits = [] := by
  rw [decodeInit, atState_perState, eq_comm (a := v), eq_comm (a := bits)]
  split <;> simp_all

theorem survivors_decodeInit (g1 g2 : Taps) : Survivors g1 g2 [] decodeInit where
  path := fun hd => by
    obtain ⟨rfl, rfl, rfl⟩ := atState_decodeInit_eq_some_iff.1 hd
    exact ⟨rfl, rfl, rfl⟩
  nearest := fun hlen => by
    obtain rfl := List.length_eq_zero_iff.1 ((Nat.mul_eq_zero.1 hlen).resolve_left two_ne_zero)
    exact ⟨0, [], atState_decodeInit_eq_some_iff.2 ⟨rfl, rfl, rfl⟩, Nat.zero_le _⟩

theorem Survivors.decodeStep {g1 g2 : Taps} {coded : List Bool} {m : PerState Survivor} (h : Survivors g1 g2 coded m)
    (r0 r1 : Bool) : Survivors g1 g2 (coded ++ [r0, r1]) (decodeStep g1 g2 r0 r1 m) where
  path := fun {d v bits} hd => by
    obtain ⟨s, v₀, bits₀, hs, hold, rfl, rfl⟩ := exists_source_of_decodeStep hd
    obtain ⟨hlen, rfl, rfl⟩ := h.path hold
    refine ⟨?_, by rw [encodeBits_concat]; exact hs, codeDistance_concat g1 g2 hlen _ r0 r1⟩
    simp only [List.length_append, List.length_cons, List.length_nil]
    omega
  nearest := fun {bits} hlen => by
    simp only [List.length_append, List.length_cons, List.length_nil] at hlen
    obtain ⟨before, b, rfl⟩ := (List.eq_nil_or_concat' bits).resolve_left (by rintro rfl; simp at hlen)
    have hlen' : 2 * before.length = coded.length := by simpa [Nat.mul_add] using hlen
    obtain ⟨v₀, bits₀, hold, hle⟩ := h.nearest hlen'
    obtain ⟨v, bits', hnew, hle'⟩ := decodeStep_le r0 r1 b hold
    rw [codeDistance_concat g1 g2 hlen', encodeBits_concat]
    exact ⟨v, bits', hnew, hle'.trans (Nat.add_le_add_right hle _)⟩

/-- R106's loop over the remaining pairs, whatever came before them. -/
theorem Survivors.decodeFrom {g1 g2 : Taps} {seen : List Bool} {m : PerState Survivor} (h : Survivors g1 g2 seen m)
    {rest : List Bool} (heven : rest.length % 2 = 0) : Survivors g1 g2 (seen ++ rest) (decodeFrom g1 g2 rest m) := by
  fun_induction Machine.decodeFrom g1 g2 rest m generalizing seen with
  | case1 r0 r1 rest m ih =>
    simpa using ih (h.decodeStep r0 r1) ((Nat.add_mod_right _ 2).symm.trans heven)
  | case2 => simp at heven
  | case3 => simpa using h

theorem survivors_decodeFrom (g1 g2 : Taps) {coded : List Bool} (heven : coded.length % 2 = 0) :
    Survivors g1 g2 coded (decodeFrom g1 g2 coded decodeInit) := (survivors_decodeInit g1 g2).decodeFrom heven

/-- The metrics of the survivors, without their paths. -/
def survivorMetric (m : PerState Survivor) (d : TrellisState) : Option Nat := (atState m d).map Prod.fst

/-- With the survivor of the best state known, so is the decoder's answer (R106). -/
theorem decodeBits_of_best {g1 g2 : Taps} {coded : List Bool} {k : TrellisState} {v : Nat} {bits : List Bool}
    (hbest : bestState (perState (survivorMetric (decodeFrom g1 g2 coded decodeInit))) = some k)
    (hk : atState (decodeFrom g1 g2 coded decodeInit) k = some (v, bits)) :
    (decodeBits coded g1 g2).bits = bits ∧ (decodeBits coded g1 g2).best = k ∧ atState (decodeBits coded g1 g2).pmw k = v := by
  unfold survivorMetric at hbest
  simp [decodeBits, hbest, hk]

/-- After any pairs some metric is finite, so the decoder has a best state and its survivor (R98, R101). -/
theorem exists_best (g1 g2 : Taps) {coded : List Bool} (heven : coded.length % 2 = 0) :
    ∃ k v bits, bestState (perState (survivorMetric (decodeFrom g1 g2 coded decodeInit))) = some k ∧
      atState (decodeFrom g1 g2 coded decodeInit) k = some (v, bits) := by
  obtain ⟨v₀, bits₀, hfinite, -⟩ := (survivors_decodeFrom g1 g2 heven).nearest
    (bits := List.replicate (coded.length / 2) false) (by rw [List.length_replicate]; omega)
  obtain ⟨k, hk⟩ := exists_bestState (m := perState (survivorMetric (decodeFrom g1 g2 coded decodeInit)))
    (by rw [atState_perState, survivorMetric, hfinite]; rfl)
  obtain ⟨v, hv, -⟩ := bestState_eq_some hk
  rw [atState_perState, survivorMetric, Option.map_eq_some_iff] at hv
  obtain ⟨⟨v', bits⟩, hentry, -⟩ := hv
  exact ⟨k, v', bits, hk, hentry⟩

/-- What the decoder's answer is among all inputs of its length: at the distance of the best metric, nearest, and, of the
nearest, one whose final state has the lowest number (R99, R101, R105). -/
structure NearestInput (g1 g2 : Taps) (coded : List Bool) (d : Decoded) : Prop where
  length : 2 * d.bits.length = coded.length
  final : (encodeBits d.bits g1 g2).2 = d.best
  distance : codeDistance g1 g2 coded d.bits = atState d.pmw d.best
  nearest : ∀ bits, 2 * bits.length = coded.length → codeDistance g1 g2 coded d.bits ≤ codeDistance g1 g2 coded bits
  lowest : ∀ bits, 2 * bits.length = coded.length → (encodeBits bits g1 g2).2.toNat < d.best.toNat →
    codeDistance g1 g2 coded d.bits < codeDistance g1 g2 coded bits

theorem nearestInput_decodeBits (g1 g2 : Taps) {coded : List Bool} (heven : coded.length % 2 = 0) :
    NearestInput g1 g2 coded (decodeBits coded g1 g2) := by
  have hsurvivors := survivors_decodeFrom g1 g2 heven
  obtain ⟨k, v, bits, hbest, hk⟩ := exists_best g1 g2 heven
  obtain ⟨hbits, hfinal, hmetric⟩ := decodeBits_of_best hbest hk
  obtain ⟨hlen, hstate, hdist⟩ := hsurvivors.path hk
  obtain ⟨w, hw, hmin, hlow⟩ := bestState_eq_some hbest
  simp only [atState_perState, survivorMetric, hk, Option.map_some, Option.some.injEq] at hw hmin hlow
  subst hw
  constructor
  case length => rwa [hbits]
  case final => rw [hbits, hfinal, hstate]
  case distance => rw [hbits, hfinal, hmetric, hdist]
  case nearest =>
    intro other hother
    obtain ⟨x, path, hentry, hle⟩ := hsurvivors.nearest hother
    rw [hbits, hdist]
    exact (hmin _ x (by rw [hentry]; rfl)).trans hle
  case lowest =>
    intro other hother hlt
    obtain ⟨x, path, hentry, hle⟩ := hsurvivors.nearest hother
    rw [hbits, hdist]
    exact (hlow _ x (hfinal ▸ hlt) (by rw [hentry]; rfl)).trans_le hle

/-- Settles O49: `NearestInput` of the decoder's answer. -/
theorem decodeIsMinimumDistance : Obligations.DecodeIsMinimumDistance := by
  intro g1 g2 coded heven
  have hanswer := nearestInput_decodeBits g1 g2 heven
  have hhalf : ∀ bits : List Bool, 2 * bits.length = coded.length ↔ bits.length = coded.length / 2 := fun bits => by omega
  exact ⟨(hhalf _).1 hanswer.length, hanswer.distance,
    fun bits hlen => hanswer.distance ▸ hanswer.nearest bits ((hhalf bits).2 hlen)⟩

end Sys2Proof.Machine
end

section
/-! What the decoder gives back of an encoded sequence (spec/43_viterbi.md R109, R110): the whole of it without errors, unless no
generator sees the current bit, and with the polynomials "111" and "101" after any single error, up to the tie in the last pair. -/

namespace Sys2Proof.Machine

/-! ### The last bit and the final tie -/

theorem toNat_successor_false_lt (s : TrellisState) : (successor s false).toNat < (successor s true).toNat := by
  revert s
  decide

/-- The decoder ends in 1 only when ending in 0 instead is strictly worse: the states with `R1 = 0` come first (R101). -/
theorem NearestInput.lt_of_last_true {g1 g2 : Taps} {coded : List Bool} {d : Decoded} (h : NearestInput g1 g2 coded d)
    {before : List Bool} (hbits : d.bits = before ++ [true]) :
    codeDistance g1 g2 coded (before ++ [true]) < codeDistance g1 g2 coded (before ++ [false]) := by
  have hlength := h.length
  have hfinal := h.final
  have hlowest := h.lowest (before ++ [false])
  rw [hbits] at hlength hfinal hlowest
  rw [← hfinal, encodeBits_concat, encodeBits_concat] at hlowest
  exact hlowest (by simpa using hlength) (toNat_successor_false_lt _)

/-! ### Round trip -/

theorem codeDistance_encodeBits_self (g1 g2 : Taps) (bits : List Bool) :
    codeDistance g1 g2 (encodeBits bits g1 g2).1 bits = 0 := hammingDistance_self _

/-- A generator that sees the current bit tells the two bits apart in every state (R84). -/
theorem eq_of_generatorOutput_eq {g : Taps} (hg : g.g0 = true) {s : TrellisState} {b b' : Bool}
    (h : generatorOutput b s g = generatorOutput b' s g) : b = b' := by
  simpa [generatorOutput, hg] using h

/-- The code is injective when a generator sees the current bit (R91, R109). -/
theorem eq_of_encodeFrom_eq {g1 g2 : Taps} (hg : g1.g0 = true ∨ g2.g0 = true) {a b : List Bool} {s : TrellisState}
    (h : (encodeFrom g1 g2 a s).1 = (encodeFrom g1 g2 b s).1) : a = b := by
  induction a generalizing b s with
  | nil =>
    cases b with
    | nil => rfl
    | cons y b => simp at h
  | cons x a ih =>
    cases b with
    | nil => simp at h
    | cons y b =>
      simp only [encodeFrom_cons, List.cons.injEq] at h
      obtain ⟨h1, h2, hrest⟩ := h
      obtain rfl : x = y := hg.elim (fun hg => eq_of_generatorOutput_eq hg h1) (fun hg => eq_of_generatorOutput_eq hg h2)
      rw [ih hrest]

theorem decodeBits_encodeBits {g1 g2 : Taps} (hg : g1.g0 = true ∨ g2.g0 = true) (bits : List Bool) :
    (decodeBits (encodeBits bits g1 g2).1 g1 g2).bits = bits := by
  have hanswer := nearestInput_decodeBits g1 g2 (coded := (encodeBits bits g1 g2).1) (by simp)
  have hzero := hanswer.nearest bits (by simp)
  rw [codeDistance_encodeBits_self, Nat.le_zero] at hzero
  have hlength : (encodeBits bits g1 g2).1.length =
      (encodeBits (decodeBits (encodeBits bits g1 g2).1 g1 g2).bits g1 g2).1.length := by
    rw [← hanswer.length, length_encodeBits]
  exact (eq_of_encodeFrom_eq hg (eq_of_hammingDistance_eq_zero hlength hzero)).symm

/-- With neither generator seeing the current bit, the last input bit never reaches the code (R109). -/
theorem codeDistance_concat_congr {g1 g2 : Taps} (h1 : g1.g0 = false) (h2 : g2.g0 = false) (coded before : List Bool)
    (b b' : Bool) : codeDistance g1 g2 coded (before ++ [b]) = codeDistance g1 g2 coded (before ++ [b']) := by
  simp only [codeDistance, encodeBits_concat, generatorOutput, h1, h2, Bool.and_false]

theorem getLast?_decodeBits_of_unseen {g1 g2 : Taps} (h1 : g1.g0 = false) (h2 : g2.g0 = false) {coded : List Bool}
    (heven : coded.length % 2 = 0) (hne : coded ≠ []) : (decodeBits coded g1 g2).bits.getLast? = some false := by
  have hanswer := nearestInput_decodeBits g1 g2 heven
  obtain hnil | ⟨before, b, hbits⟩ := List.eq_nil_or_concat' (decodeBits coded g1 g2).bits
  · have hlength := hanswer.length
    simp [hnil, eq_comm, hne] at hlength
  · cases b with
    | false => simp [hbits]
    | true => exact absurd (codeDistance_concat_congr h1 h2 coded before true false) (hanswer.lt_of_last_true hbits).ne

/-- Settles O50: injectivity of the code makes the input the only one at distance 0; without it the final tie ends in 0. -/
theorem codecRoundTrip : Obligations.CodecRoundTrip := by
  intro g1 g2 bits
  refine ⟨fun hg => decodeBits_encodeBits hg bits, fun h1 h2 => ?_⟩
  have hlast : bits ≠ [] → (decodeBits (encodeBits bits g1 g2).1 g1 g2).bits.getLast? = some false := fun hne =>
    getLast?_decodeBits_of_unseen h1 h2 (by simp) (List.ne_nil_of_length_pos (by simp [List.length_pos_iff.2 hne]))
  refine ⟨hlast, fun hone hback => ?_⟩
  have hzero := hlast (by rintro rfl; simp at hone)
  rw [hback, hone] at hzero
  cases hzero

/-! ### A single error -/

theorem toNat_xor_triangle (x y z : Bool) : (y ^^ z).toNat ≤ (x ^^ y).toNat + (x ^^ z).toNat := by
  revert x y z
  decide

/-- The triangle inequality, for sequences of one length (R12). -/
theorem hammingDistance_triangle {a b c : List Bool} (hb : a.length = b.length) (hc : a.length = c.length) :
    hammingDistance b c ≤ hammingDistance a b + hammingDistance a c := by
  induction a generalizing b c with
  | nil =>
    rw [List.length_eq_zero_iff.1 hb.symm, List.length_eq_zero_iff.1 hc.symm]
    exact Nat.zero_le _
  | cons x a ih =>
    match b, c with
    | y :: b, z :: c =>
      have hrest := ih (Nat.succ.inj hb) (Nat.succ.inj hc)
      have hhead := toNat_xor_triangle x y z
      simp only [hammingDistance_cons]
      omega

theorem flipBit_append (a b : List Bool) (pos : Nat) :
    flipBit (a ++ b) pos = if pos < a.length then flipBit a pos ++ b else a ++ flipBit b (pos - a.length) := by
  induction a generalizing pos with
  | nil => rfl
  | cons x a ih =>
    cases pos with
    | zero => rfl
    | succ pos =>
      simp only [List.cons_append, flipBit, ih, List.length_cons, Nat.add_lt_add_iff_right, Nat.add_sub_add_right]
      split <;> rfl

theorem hammingDistance_flipBit {a : List Bool} {pos : Nat} (h : pos < a.length) : hammingDistance (flipBit a pos) a = 1 := by
  induction a generalizing pos with
  | nil => cases h
  | cons x a ih =>
    cases pos with
    | zero => simp [flipBit]
    | succ pos => simpa [flipBit] using ih (Nat.lt_of_succ_lt_succ h)

/-- The taps of the polynomial "111". -/
def taps111 : Taps := { g0 := true, g1 := true, g2 := true }

/-- The taps of the polynomial "101". -/
def taps101 : Taps := { g0 := true, g1 := false, g2 := true }

/-- The two edges out of a state carry complementary pairs, so their branch metrics add up to 2 (R110). -/
theorem branchMetric_add_not (s : TrellisState) (b r0 r1 : Bool) :
    branchMetric taps111 taps101 s b r0 r1 + branchMetric taps111 taps101 s (!b) r0 r1 = 2 := by
  revert s b r0 r1
  decide

/-- The two edges out of one state carry pairs that differ in both bits (R110). -/
theorem xor_siblings (s : TrellisState) {x x' : Bool} (hx : x ≠ x') :
    (generatorOutput x s taps111 ^^ generatorOutput x' s taps111) = true ∧
    (generatorOutput x s taps101 ^^ generatorOutput x' s taps101) = true := by
  revert s x x'
  decide

/-- After the two edges out of one state, the next pairs differ, whatever the next bits (R85). -/
theorem xor_after_siblings (s : TrellisState) {x x' : Bool} (hx : x ≠ x') (y y' : Bool) :
    1 ≤ (generatorOutput y (successor s x) taps111 ^^ generatorOutput y' (successor s x') taps111).toNat +
      (generatorOutput y (successor s x) taps101 ^^ generatorOutput y' (successor s x') taps101).toNat := by
  revert s x x' y y'
  decide

theorem one_le_hammingDistance_after_siblings (s : TrellisState) {x x' : Bool} (hx : x ≠ x') {a b : List Bool} (ha : a ≠ [])
    (hb : b ≠ []) :
    1 ≤ hammingDistance (encodeFrom taps111 taps101 a (successor s x)).1 (encodeFrom taps111 taps101 b (successor s x')).1 := by
  match a, b with
  | y :: a, y' :: b =>
    have hpair := xor_after_siblings s hx y y'
    simp only [encodeFrom_cons, hammingDistance_cons]
    omega

/-- The code words of two inputs that differ before their last bit are at distance 3 or more (R110). -/
theorem three_le_hammingDistance {p q : List Bool} (hlen : p.length = q.length) (hne : p ≠ q) (s : TrellisState)
    (z x : Bool) :
    3 ≤ hammingDistance (encodeFrom taps111 taps101 (p ++ [z]) s).1 (encodeFrom taps111 taps101 (q ++ [x]) s).1 := by
  induction p generalizing q s with
  | nil => exact absurd (List.length_eq_zero_iff.1 hlen.symm).symm hne
  | cons a p ih =>
    match q with
    | b :: q =>
      simp only [List.cons_append, encodeFrom_cons, hammingDistance_cons]
      by_cases hab : a = b
      · subst hab
        have hrest := ih (Nat.succ.inj hlen) (fun hpq => hne (hpq ▸ rfl)) (successor s a)
        omega
      · have hrest := one_le_hammingDistance_after_siblings s hab (a := p ++ [z]) (b := q ++ [x]) (by simp) (by simp)
        obtain ⟨h1, h2⟩ := xor_siblings s hab
        rw [h1, h2, Bool.toNat_true]
        omega

/-- The code word of an input, with the bit at one position flipped. -/
def codeWithError (bits : List Bool) (pos : Nat) : List Bool := flipBit (encodeBits bits taps111 taps101).1 pos

@[simp] theorem length_codeWithError (bits : List Bool) (pos : Nat) : (codeWithError bits pos).length = 2 * bits.length := by
  simp [codeWithError]

/-- An error before the last pair leaves that pair, and one in the last pair the code before it. -/
theorem exists_lastPair_codeWithError (before : List Bool) (z : Bool) (pos : Nat) :
    ∃ r0 r1, codeWithError (before ++ [z]) pos =
      (if pos < 2 * before.length then codeWithError before pos else (encodeBits before taps111 taps101).1) ++ [r0, r1] ∧
      (pos < 2 * before.length → branchMetric taps111 taps101 (encodeBits before taps111 taps101).2 z r0 r1 = 0) := by
  rw [codeWithError, encodeBits_concat, flipBit_append, length_encodeBits]
  by_cases hearly : pos < 2 * before.length
  · refine ⟨_, _, by simp only [if_pos hearly]; rfl, fun _ => by simp [branchMetric]⟩
  · obtain ⟨r0, r1, hpair⟩ := List.length_eq_two.1 (length_flipBit
      [generatorOutput z (encodeBits before taps111 taps101).2 taps111,
        generatorOutput z (encodeBits before taps111 taps101).2 taps101] (pos - 2 * before.length))
    exact ⟨r0, r1, by simp only [if_neg hearly, hpair], fun h => absurd h hearly⟩

/-- An error leaves an input's own code word at distance 1. The code word with the other last bit is then at distance 3, or at
distance 1 as well when the error is in the last pair (R110). -/
theorem codeDistance_codeWithError (before : List Bool) (z b : Bool) {pos : Nat} (hpos : pos < 2 * before.length + 2) :
    codeDistance taps111 taps101 (codeWithError (before ++ [z]) pos) (before ++ [b]) =
      if b = z ∨ 2 * before.length ≤ pos then 1 else 3 := by
  have hsent : codeDistance taps111 taps101 (codeWithError (before ++ [z]) pos) (before ++ [z]) = 1 :=
    hammingDistance_flipBit (by rw [length_encodeBits, List.length_append]; exact hpos)
  obtain rfl | hb := eq_or_ne b z
  · rw [hsent, if_pos (.inl rfl)]
  rw [Bool.eq_not_iff.2 hb]
  obtain ⟨r0, r1, hsplit, hearlyPair⟩ := exists_lastPair_codeWithError before z pos
  have hsum := branchMetric_add_not (encodeBits before taps111 taps101).2 z r0 r1
  by_cases hearly : pos < 2 * before.length
  · have hpair := hearlyPair hearly
    rw [hsplit, if_pos hearly, codeDistance_concat _ _ (by simp)] at hsent ⊢
    rw [if_neg (by simpa using hearly)]
    omega
  · rw [hsplit, if_neg hearly, codeDistance_concat _ _ (by simp), codeDistance_encodeBits_self] at hsent ⊢
    rw [if_pos (.inr (Nat.not_lt.1 hearly))]
    omega

/-- After a single error the decoder is right up to the last bit: inputs that differ before it are too far apart (R110). -/
theorem exists_last_of_codeWithError (before : List Bool) (z : Bool) {pos : Nat} (hpos : pos < 2 * before.length + 2) :
    ∃ x, (decodeBits (codeWithError (before ++ [z]) pos) taps111 taps101).bits = before ++ [x] ∧
      codeDistance taps111 taps101 (codeWithError (before ++ [z]) pos) (before ++ [x]) ≤ 1 := by
  have hanswer := nearestInput_decodeBits taps111 taps101 (coded := codeWithError (before ++ [z]) pos) (by simp)
  have hsent := codeDistance_codeWithError before z z hpos
  have hnear := hanswer.nearest (before ++ [z]) (by simp)
  have hlength := hanswer.length
  rw [if_pos (.inl rfl)] at hsent
  rw [hsent] at hnear
  obtain hnil | ⟨q, x, hbits⟩ := List.eq_nil_or_concat' (decodeBits (codeWithError (before ++ [z]) pos) taps111 taps101).bits
  · simp [hnil] at hlength
  rw [hbits] at hnear hlength ⊢
  have hq : before = q := by
    by_contra hne
    have hfar := three_le_hammingDistance (by simpa using hlength.symm) hne 0 z x
    have hclose := hammingDistance_triangle (a := codeWithError (before ++ [z]) pos)
      (b := (encodeBits (before ++ [z]) taps111 taps101).1) (c := (encodeBits (q ++ [x]) taps111 taps101).1)
      (by rw [length_codeWithError, length_encodeBits]) (by rw [length_encodeBits, hlength])
    exact absurd (hfar.trans (hclose.trans (Nat.add_le_add hsent.le hnear))) (by decide)
  exact ⟨x, hq ▸ rfl, hq ▸ hnear⟩

/-- Settles O51: only the last bit is in doubt. A wrong one costs 3 when the error is before the last pair; when it is in the
last pair both cost 1, and the final tie prefers 0. -/
theorem singleErrorCorrection : Obligations.SingleErrorCorrection := by
  intro bits pos hne hpos g1 g2
  obtain ⟨before, z, rfl⟩ := (List.eq_nil_or_concat' bits).resolve_left hne
  have hpos' : pos < 2 * before.length + 2 := by simpa [Nat.mul_add] using hpos
  obtain ⟨x, hbits, hnear⟩ := exists_last_of_codeWithError before z hpos'
  have hdistance := fun b => codeDistance_codeWithError before z b hpos'
  have hlate : 2 * (before ++ [z]).length ≤ pos + 2 ↔ 2 * before.length ≤ pos := by simp [Nat.mul_add]
  have hlast : x = if 2 * before.length ≤ pos ∧ z = true then false else z := by
    by_cases hpair : 2 * before.length ≤ pos
    · have hx : x ≠ true := by
        rintro rfl
        have htie := (nearestInput_decodeBits taps111 taps101 (by simp)).lt_of_last_true hbits
        rw [hdistance, hdistance, if_pos (.inr hpair), if_pos (.inr hpair)] at htie
        exact lt_irrefl 1 htie
      cases z <;> simp [hpair, hx]
    · by_contra hx
      rw [if_neg (fun h => hpair h.1)] at hx
      rw [hdistance, if_neg (by simp [hx, hpair])] at hnear
      exact absurd hnear (by decide)
  show (decodeBits (codeWithError (before ++ [z]) pos) taps111 taps101).bits = _
  simp only [hbits, hlate, List.getLast?_concat, List.dropLast_concat, Option.some.injEq, hlast]
  split <;> rfl

end Sys2Proof.Machine
end

section
/-! A whole DECODE (spec/43_viterbi.md R104 to R107): the add-compare-select steps keep the metrics of the path-storing decoder and
a traceback memory from which its paths can be read back, and the traceback steps read the best one. -/

namespace Sys2Proof.Machine

/-! ### Walks back through the decision words -/

/-- The walk back from a state at T = `t` through the decision words `w` gives these bits and ends in state 00 (R102, R105). -/
inductive Traces (w : Nat → PerState Bool) : Nat → TrellisState → List Bool → Prop
  | start : Traces w 0 0 []
  | step {t : Nat} {d : TrellisState} {bits : List Bool} (h : Traces w t (predecessor d (atState (w t) d)) bits) :
      Traces w (t + 1) d (bits ++ [trellisR1 d])

theorem Traces.length {w : Nat → PerState Bool} {t : Nat} {d : TrellisState} {bits : List Bool} (h : Traces w t d bits) :
    bits.length = t := by
  induction h with
  | start => rfl
  | step _ ih => rw [List.length_append, ih]; rfl

theorem Traces.eq_zero {w : Nat → PerState Bool} {d : TrellisState} {bits : List Bool} (h : Traces w 0 d bits) : d = 0 := by
  cases h
  rfl

/-- A walk from T = `t` reads the words below `t` only (R104). -/
theorem Traces.congr {w w' : Nat → PerState Bool} {t : Nat} {d : TrellisState} {bits : List Bool} (h : Traces w t d bits)
    (hw : ∀ i < t, w' i = w i) : Traces w' t d bits := by
  induction h with
  | start => exact .start
  | @step t d bits _ ih =>
    have hprev := ih fun i hi => hw i (by omega)
    rw [← hw t (Nat.lt_succ_self t)] at hprev
    exact .step hprev

/-! ### The add-compare-select steps -/

theorem decodeFrom_append_pair (g1 g2 : Taps) {coded : List Bool} (heven : coded.length % 2 = 0) (r0 r1 : Bool)
    (m : PerState Survivor) :
    decodeFrom g1 g2 (coded ++ [r0, r1]) m = decodeStep g1 g2 r0 r1 (decodeFrom g1 g2 coded m) := by
  fun_induction decodeFrom g1 g2 coded m with
  | case1 x y rest m ih => exact ih ((Nat.add_mod_right _ 2).symm.trans heven)
  | case2 => simp at heven
  | case3 => rfl

theorem acsSelect_fst (first second : Option Nat) :
    (acsSelect first second).1 = if (acsSelect first second).2 then second else first := by
  cases first <;> cases second <;> simp only [acsSelect]
  case some.some => split <;> rfl
  all_goals rfl

/-- With the same metrics before it, a destination of the hardware step chooses the source whose survivor R106's time step
extends, and gets its metric (R95, R105). -/
theorem acsDestination_eq_decodeStep {s : State} {m : PerState Survivor} (hmetric : ∀ d, s.metric d = survivorMetric m d)
    (r0 r1 : Bool) (d : TrellisState) :
    atState (decodeStep s.tap1 s.tap2 r0 r1 m) d =
      edgeCandidate s.tap1 s.tap2 r0 r1 m (predecessor d (acsDestination s r0 r1 d).2) (trellisR1 d) ∧
    (acsDestination s r0 r1 d).1 = survivorMetric (decodeStep s.tap1 s.tap2 r0 r1 m) d := by
  have hcandidate : ∀ r, acsCandidate s r0 r1 d r =
      (edgeCandidate s.tap1 s.tap2 r0 r1 m (predecessor d r) (trellisR1 d)).map Prod.fst := fun r => by
    simp [acsCandidate, hmetric, survivorMetric, edgeCandidate, Function.comp_def]
  have hmetrics := acsSelect_fst (acsCandidate s r0 r1 d false) (acsCandidate s r0 r1 d true)
  rw [survivorMetric, atState_decodeStep, selectSurvivor, ← hcandidate, ← hcandidate]
  rw [acsDestination, hmetrics]
  cases (acsSelect (acsCandidate s r0 r1 d false) (acsCandidate s r0 r1 d true)).2 <;> simp [hcandidate]

/-- The survivors of the path-storing decoder after `n` pairs of the block's frame. -/
def State.survivors (s : State) (n : Nat) : PerState Survivor :=
  decodeFrom s.tap1 s.tap2 (s.frameBits (2 * n)) decodeInit

theorem State.survivors_succ (s : State) (n : Nat) :
    s.survivors (n + 1) = decodeStep s.tap1 s.tap2 (decide (s.inByte (2 * n) = 0x31)) (decide (s.inByte (2 * n + 1) = 0x31))
      (s.survivors n) := by
  have hpair : s.frameBits (2 * (n + 1)) =
      s.frameBits (2 * n) ++ [decide (s.inByte (2 * n) = 0x31), decide (s.inByte (2 * n + 1) = 0x31)] :=
    List.append_assoc _ _ _
  rw [State.survivors, hpair, decodeFrom_append_pair _ _ (by simp)]
  rfl

/-- `u` is `v`, a block at the start of ACS, after `n` steps: its metrics are those of the path-storing decoder after `n` pairs,
TBM leads back along that decoder's paths, and nothing else but T has changed (R105). -/
structure DecodedPrefix (v : State) (n : Nat) (u : State) : Prop where
  count : u.t.toNat = n
  metrics : ∀ d, u.metric d = survivorMetric (v.survivors n) d
  paths : ∀ {d m bits}, atState (v.survivors n) d = some (m, bits) → Traces u.tbmWord n d bits
  frame : u = { v with pmv := u.pmv, pmw := u.pmw, t := u.t, tbm := u.tbm }

/-- What the add-compare-select steps leave as the start of ACS had it. -/
theorem DecodedPrefix.keeps {v u : State} {n : Nat} (h : DecodedPrefix v n u) :
    u.tap1 = v.tap1 ∧ u.tap2 = v.tap2 ∧ u.phase = v.phase ∧ u.opr = v.opr ∧ u.nstep = v.nstep ∧ u.ovr = v.ovr ∧
    u.irqEn = v.irqEn ∧ u.lenr = v.lenr ∧ u.poly1r = v.poly1r ∧ u.poly2r = v.poly2r ∧ u.r1 = v.r1 ∧ u.r2 = v.r2 ∧
    u.inBuf = v.inBuf ∧ u.outBuf = v.outBuf ∧ u.era = v.era := by
  rw [h.frame]
  simp

theorem decodedPrefix_zero {v : State} (ht : v.t = 0) (hmetric : ∀ d, v.metric d = if d = 0 then some 0 else none) :
    DecodedPrefix v 0 v where
  count := by rw [ht]; rfl
  metrics := fun d => by
    rw [hmetric, survivorMetric, State.survivors]
    by_cases hd : d = 0 <;> simp [decodeFrom, decodeInit, State.frameBits, hd]
  paths := fun hd => by
    obtain ⟨rfl, -, rfl⟩ := atState_decodeInit_eq_some_iff.1 hd
    exact .start
  frame := rfl

/-- One add-compare-select step takes the survivors of `n` pairs to those of `n + 1` pairs (R95, R105). -/
theorem DecodedPrefix.acsStep {v u : State} {n : Nat} (h : DecodedPrefix v n u) (hlt : u.t < u.nstep) {r0 r1 : Bool}
    (hr0 : r0 = decide (u.inByte (2 * u.t.toNat) = 0x31)) (hr1 : r1 = decide (u.inByte (2 * u.t.toNat + 1) = 0x31))
    (hfits : ∀ d, metricFits (acsDestination u r0 r1 d).1 = true) : DecodedPrefix v (n + 1) (acsStep r0 r1 u) := by
  have ⟨hcount, hmetrics, hpaths, hframe⟩ := h
  have hin : ∀ i, u.inByte i = v.inByte i := State.inByte_congr (by simp [h.keeps]) (by simp [h.keeps])
  have hsurvivors : v.survivors (n + 1) = decodeStep u.tap1 u.tap2 r0 r1 (v.survivors n) := by
    rw [State.survivors_succ, hr0, hr1, hcount, hin, hin]
    simp only [h.keeps]
  have hchoice := acsDestination_eq_decodeStep hmetrics r0 r1
  constructor
  case count => exact (toNat_add_one_of_lt hlt).trans (congrArg (· + 1) hcount)
  case metrics =>
    intro d
    rw [metric_acsStep hfits, hsurvivors]
    exact (hchoice d).2
  case paths =>
    intro d m bits hd
    rw [hsurvivors, (hchoice d).1] at hd
    obtain ⟨m₀, bits₀, hsource, -, rfl⟩ := edgeCandidate_eq_some_iff.1 hd
    refine .step ?_
    rw [tbmWord_acsStep, if_pos hcount.symm, atState_perState]
    exact (hpaths hsource).congr fun i hi => by rw [tbmWord_acsStep, if_neg (by omega)]
  case frame =>
    rw [hframe]
    rfl

/-- Left alone in ACS, the block takes in the first `n` pairs of its frame in `n` steps, up to NSTEP of them (R100). -/
theorem runSteps_acs {v : State} (hv : v.Undisturbed) (hphase : v.phase = .acs) (ht : v.t = 0)
    (hmetric : ∀ d, v.metric d = if d = 0 then some 0 else none) {n : Nat} (hn : n ≤ v.nstep.toNat) :
    ∃ u, runSteps n v = .next u ∧ u.Undisturbed ∧ DecodedPrefix v n u := by
  induction n with
  | zero => exact ⟨v, rfl, hv, decodedPrefix_zero ht hmetric⟩
  | succ n ih =>
    obtain ⟨u, hrun, hu, hdecoded⟩ := ih (Nat.le_of_succ_le hn)
    have hlt : u.t < u.nstep := by simpa [BitVec.lt_def, hdecoded.count, hdecoded.keeps] using hn
    obtain ⟨hturn, hfits⟩ := sequencerStep_acs_of_lt hu.inv (by simp [hdecoded.keeps, hphase]) hlt
    obtain ⟨hstep, hundisturbed⟩ := hu.step_of_sequencerStep hturn
    exact ⟨_, (runSteps_succ_last hrun).trans (runSteps_succ 0 hstep), hundisturbed, hdecoded.acsStep hlt rfl rfl hfits⟩

/-! ### The traceback steps -/

/-- `u` is `v`, a block at the start of TB, when T has come down to `t`: OUT holds the bits of the best path from `t` on, the rest
of it can be walked back from TBS, and nothing else has changed (R102, R105). -/
structure TracedBack (v : State) (bits : List Bool) (t : Nat) (u : State) : Prop where
  count : u.t.toNat = t
  walk : ∃ before, before <+: bits ∧ Traces v.tbmWord t u.tbs before
  out : ∀ i, u.outByte i = if i < t then v.outByte i else (bits[i]?.map symbolOf).getD (v.outByte i)
  frame : u = { v with tbs := u.tbs, t := u.t, outBuf := u.outBuf }

/-- What the traceback steps leave as the start of TB had it. -/
theorem TracedBack.keeps {v u : State} {bits : List Bool} {t : Nat} (h : TracedBack v bits t u) :
    u.phase = v.phase ∧ u.opr = v.opr ∧ u.nstep = v.nstep ∧ u.ovr = v.ovr ∧ u.irqEn = v.irqEn ∧ u.lenr = v.lenr ∧
    u.poly1r = v.poly1r ∧ u.poly2r = v.poly2r ∧ u.r1 = v.r1 ∧ u.r2 = v.r2 ∧ u.pmv = v.pmv ∧ u.pmw = v.pmw ∧
    u.bestr = v.bestr ∧ u.inBuf = v.inBuf ∧ u.tbm = v.tbm ∧ u.era = v.era := by
  rw [h.frame]
  simp

theorem tracedBack_start {v : State} {bits : List Bool} (h : Traces v.tbmWord v.t.toNat v.tbs bits) :
    TracedBack v bits v.t.toNat v where
  count := rfl
  walk := ⟨bits, List.prefix_rfl, h⟩
  out := fun i => by
    split
    · rfl
    · rw [List.getElem?_eq_none (by rw [h.length]; omega)]
      rfl
  frame := rfl

/-- One traceback step writes the last bit of the walk that is left (R102). -/
theorem TracedBack.tracebackStep {v u : State} {bits : List Bool} {t : Nat} (h : TracedBack v bits (t + 1) u) (hmore : u.t ≠ 0) :
    TracedBack v bits t (tracebackStep u) := by
  have ⟨hcount, ⟨before, hprefix, hwalk⟩, hout, hframe⟩ := h
  have hlast : u.t.toNat - 1 = t := by omega
  have htbm : u.tbmWord t = v.tbmWord t := State.tbmWord_congr (by simp [h.keeps]) (by simp [h.keeps]) t
  cases hwalk with
  | @step _ _ before hrest =>
    obtain ⟨after, rfl⟩ := hprefix
    constructor
    case count => exact (toNat_sub_one_of_ne hmore).trans hlast
    case walk =>
      refine ⟨before, by simp, ?_⟩
      rw [(tracebackStep_writes u).1, hlast, htbm]
      exact hrest
    case out =>
      intro i
      rw [outByte_tracebackStep, hlast, hout]
      obtain hlt | rfl | hgt := lt_trichotomy i t
      · rw [if_neg hlt.ne, if_pos (by omega), if_pos hlt]
      · rw [if_pos rfl, if_neg (lt_irrefl i), ← hrest.length]
        simp
      · rw [if_neg hgt.ne', if_neg (by omega), if_neg (by omega)]
    case frame =>
      rw [hframe]
      rfl

/-- Left alone in TB, the block writes the rest of the best path in T steps (R103). -/
theorem runSteps_tb {v u : State} {bits : List Bool} {t : Nat} (hphase : v.phase = .tb) (hu : u.Undisturbed)
    (h : TracedBack v bits t u) : ∃ w, runSteps t u = .next w ∧ w.Undisturbed ∧ TracedBack v bits 0 w := by
  induction t generalizing u with
  | zero => exact ⟨u, rfl, hu, h⟩
  | succ t ih =>
    have hmore : u.t ≠ 0 := fun hzero => by simpa [hzero] using h.count
    obtain ⟨hstep, hundisturbed⟩ :=
      hu.step_of_sequencerStep (sequencerStep_tb_of_ne hu.inv (by simp [h.keeps, hphase]) hmore)
    obtain ⟨w, hrun, hw⟩ := ih hundisturbed (h.tracebackStep hmore)
    exact ⟨w, (runSteps_succ t hstep).trans hrun, hw⟩

/-! ### A whole DECODE -/

theorem runSteps_add {a : Nat} {s u : State} (b : Nat) (h : runSteps a s = .next u) : runSteps (a + b) s = runSteps b u := by
  induction a generalizing s with
  | zero =>
    cases h
    rw [Nat.zero_add]
  | succ a ih =>
    obtain ⟨v, hstep, hrest⟩ := runSteps_succ_eq_next h
    rw [Nat.succ_add, runSteps_succ _ hstep, ih hrest]

/-- The two steps between the last add-compare-select step and the first traceback step (R100, R101). -/
theorem runSteps_select {u : State} {k : TrellisState} (hu : u.Undisturbed) (hphase : u.phase = .acs) (hlast : u.t = u.nstep)
    (hbest : bestState (perState u.metric) = some k) :
    runSteps 2 u = .next (selectBest k (enterSelect u)) ∧ (selectBest k (enterSelect u)).Undisturbed := by
  obtain ⟨henter, hv⟩ := hu.step_of_sequencerStep (sequencerStep_acs_last hphase hlast)
  obtain ⟨hselect, hw⟩ := hv.step_of_sequencerStep (sequencerStep_sel (k := k) rfl hbest)
  exact ⟨(runSteps_succ 1 henter).trans (runSteps_succ 0 hselect), hw⟩

/-- The metrics right after CHECK: 0 in state 00, INF elsewhere (R92). -/
theorem metric_enterDecode (s : State) (d : TrellisState) : (enterDecode s).metric d = if d = 0 then some 0 else none := by
  simp [State.metric]

/-- A DECODE that passes CHECK completes after LEN + 4 steps: ACS computes the survivors of the frame's pairs, SEL picks the best
one and TB writes its path (R71, R105). -/
theorem runSteps_decode {s : State} (hs : s.Started) (hopr : s.opr = .decode) (hpass : s.passesCheck) :
    ∃ u k m bits w,
      u.Undisturbed ∧ DecodedPrefix (enterDecode s) (s.lenr.toNat / 2) u ∧
      bestState (perState (survivorMetric ((enterDecode s).survivors (s.lenr.toNat / 2)))) = some k ∧
      atState ((enterDecode s).survivors (s.lenr.toNat / 2)) k = some (m, bits) ∧
      TracedBack (selectBest k (enterSelect u)) bits 0 w ∧
      runSteps (s.lenr.toNat + 4) s = .next (completeCommand w) := by
  have ⟨_, _, heven, _⟩ := hpass
  have hcheck : sequencerStep s = .next (enterDecode s) := by
    simp only [sequencerStep, hs.phase]
    exact checkPhase_decode hopr ((checkError_eq_none_iff (by simp [hopr])).2 hpass)
  have hnstep := toNat_enterDecode_nstep s
  obtain ⟨hstart, hv⟩ := hs.undisturbed.step_of_sequencerStep hcheck
  obtain ⟨u, hacs, hu, hdecoded⟩ := runSteps_acs hv rfl rfl (metric_enterDecode s) hnstep.ge
  obtain ⟨k, m, bits, hbest, hk⟩ := exists_best (enterDecode s).tap1 (enterDecode s).tap2
    (coded := (enterDecode s).frameBits (2 * (s.lenr.toNat / 2))) (by simp)
  have hlast : u.t = u.nstep := BitVec.eq_of_toNat_eq (by rw [hdecoded.count, ← hnstep]; simp [hdecoded.keeps])
  obtain ⟨hselect, hx⟩ := runSteps_select hu (by simp [hdecoded.keeps]) hlast (k := k)
    (by rw [funext hdecoded.metrics]; exact hbest)
  have hwalk : Traces u.tbmWord u.t.toNat k bits := hdecoded.count ▸ hdecoded.paths hk
  obtain ⟨w, htb, hw, htraced⟩ := runSteps_tb rfl hx (tracedBack_start (v := selectBest k (enterSelect u)) hwalk)
  obtain ⟨hend, -⟩ := hw.step_of_sequencerStep
    (sequencerStep_tb_zero (by simp [htraced.keeps]) (BitVec.eq_of_toNat_eq htraced.count))
  have hrun := (runSteps_succ _ hstart).trans ((runSteps_add _ hacs).trans ((runSteps_add _ hselect).trans
    ((runSteps_add _ htb).trans (runSteps_succ 0 hend))))
  refine ⟨u, k, m, bits, w, hu, hdecoded, hbest, hk, htraced, ?_⟩
  have hcount : (selectBest k (enterSelect u)).t.toNat = s.lenr.toNat / 2 := hdecoded.count
  rw [hcount] at hrun
  have hsteps : s.lenr.toNat / 2 + (2 + (s.lenr.toNat / 2 + (0 + 1))) + 1 = s.lenr.toNat + 4 := by
    have := heven hopr
    omega
  exact hsteps ▸ hrun

/-- After the pairs of the whole frame, the survivors are those of the decoder as a function (R106). -/
theorem survivors_enterDecode {s : State} (heven : s.lenr.toNat % 2 = 0) :
    (enterDecode s).survivors (s.lenr.toNat / 2) =
      decodeFrom (polyTaps s.poly1r) (polyTaps s.poly2r) (s.frameBits s.lenr.toNat) decodeInit := by
  have hlen : 2 * (s.lenr.toNat / 2) = s.lenr.toNat := by omega
  rw [State.survivors, hlen, State.frameBits_congr (s := s) (by simp) (by simp)]
  simp only [enterDecode_writes]

theorem pmv_eq_isSome_metric (s : State) (d : TrellisState) : atState s.pmv d = (s.metric d).isSome := by
  unfold State.metric
  split <;> simp_all

/-- An INF entry holds the value 0 (R20). -/
theorem State.Inv.toNat_pmw_eq {s : State} (h : s.Inv) (d : TrellisState) : (atState s.pmw d).toNat = (s.metric d).getD 0 := by
  cases hm : s.metric d with
  | none =>
    rw [h.infZero d ((State.metric_eq_none_iff s d).1 hm)]
    rfl
  | some v => exact ((State.metric_eq_some_iff s d v).1 hm).2

/-- The metrics the decoder returns are those of its survivors, with 0 for INF (R106). -/
theorem decodeBits_metrics (coded : List Bool) (g1 g2 : Taps) (d : TrellisState) :
    atState (decodeBits coded g1 g2).pmv d = (survivorMetric (decodeFrom g1 g2 coded decodeInit) d).isSome ∧
    atState (decodeBits coded g1 g2).pmw d = (survivorMetric (decodeFrom g1 g2 coded decodeInit) d).getD 0 := by
  simp only [decodeBits, atState_perState, survivorMetric, Option.isSome_map, true_and]
  cases atState (decodeFrom g1 g2 coded decodeInit) d <;> rfl

/-- Settles O25: `DecodedPrefix` at n = LEN/2 gives the metrics and the best state, `TracedBack` at T = 0 gives OUT and TBS = 0. -/
theorem decodeComputesBestPath : Obligations.DecodeComputesBestPath := by
  intro s hs hopr hpass
  have ⟨_, _, heven, _⟩ := hpass
  obtain ⟨u, k, m, bits, w, hu, hdecoded, hbest, hk, htraced, hrun⟩ := runSteps_decode hs hopr hpass
  have ⟨_, ⟨before, hprefix, hwalk⟩, hout, _⟩ := htraced
  have hkeeps := htraced.keeps
  simp only [selectBest_keeps, selectBest_writes, enterSelect_keeps, hdecoded.keeps, enterDecode_keeps,
    enterDecode_writes] at hkeeps
  have hmetrics := hdecoded.metrics
  rw [survivors_enterDecode (heven hopr)] at hbest hk hmetrics
  obtain ⟨hbits, hfinal, -⟩ := decodeBits_of_best hbest hk
  have hreturned := decodeBits_metrics (s.frameBits s.lenr.toNat) (polyTaps s.poly1r) (polyTaps s.poly2r)
  have hlength := (nearestInput_decodeBits (polyTaps s.poly1r) (polyTaps s.poly2r) (coded := s.frameBits s.lenr.toNat)
    (by simpa using heven hopr)).length
  rw [State.frameBits_length] at hlength
  have hstart : ∀ i, (selectBest k (enterSelect u)).outByte i = s.outByte i :=
    State.outByte_congr (by simp [hdecoded.keeps]) (by simp [hdecoded.keeps])
  have houtByte : ∀ i, (completeCommand w).outByte i = (bits[i]?.map symbolOf).getD (s.outByte i) := fun i => by
    rw [← hstart]
    exact (hout i).trans (if_neg (Nat.not_lt_zero i))
  refine ⟨completeCommand w, hrun, rfl, rfl, rfl, ?_, by omega, fun i b hb => ?_, ?_, perState_ext fun d => ?_, fun d => ?_,
    hwalk.eq_zero, fun i hi => ?_, State.inByte_congr (by simp [hkeeps]) (by simp [hkeeps]), ?_⟩
  · rw [← toNat_enterDecode_nstep]
    simp [hkeeps, hopr]
  · rw [houtByte, ← hbits, hb]
    rfl
  · simp [hkeeps, hfinal]
  · rw [(hreturned d).1, ← hmetrics, ← pmv_eq_isSome_metric]
    simp [hkeeps]
  · rw [(hreturned d).2, ← hmetrics, ← hu.inv.toNat_pmw_eq]
    simp [hkeeps]
  · rw [houtByte, List.getElem?_eq_none (by rw [← hbits]; omega)]
    rfl
  · simp [hkeeps]

end Sys2Proof.Machine
end

section
/-! The order of CHECK's errors and the error completion (spec/60_exceptions.md R114, R115). -/

namespace Sys2Proof.Machine

/-- LEN is in range exactly when neither operation's bound is exceeded (R111). -/
theorem lengthFits_iff (s : State) :
    s.lengthFits ↔
      ¬ (s.opr = .encode ∧ s.params.nMax < s.lenr.toNat) ∧ ¬ (s.opr = .decode ∧ 2 * s.params.nMax < s.lenr.toNat) := by
  simp only [State.lengthFits, not_and, not_lt]

/-- Which error CHECK reports says what it found wrong and which earlier conditions held (R114). -/
theorem checkError_cases {s : State} {code : ErrCode} (h : checkError s = some code) :
    (code = .lengthRange ∧ ¬ s.lengthFits) ∨
    (code = .invalidPolynomial ∧ s.lengthFits ∧ ¬ s.polynomialsValid) ∨
    (code = .invalidInput ∧ s.lengthFits ∧ s.polynomialsValid) := by
  unfold checkError at h
  split_ifs at h with hencode hdecode hpoly1 hpoly2 hodd hsymbols <;> cases h
  · exact .inl ⟨rfl, fun hfits => ((lengthFits_iff s).1 hfits).1 hencode⟩
  · exact .inl ⟨rfl, fun hfits => ((lengthFits_iff s).1 hfits).2 hdecode⟩
  all_goals have hfits : s.lengthFits := (lengthFits_iff s).2 ⟨hencode, hdecode⟩
  · exact .inr (.inr ⟨rfl, hfits, hpoly1, hpoly2⟩)
  · exact .inr (.inr ⟨rfl, hfits, hpoly1, hpoly2⟩)
  · exact .inr (.inl ⟨rfl, hfits, fun ⟨_, hvalid2⟩ => hpoly2 hvalid2⟩)
  · exact .inr (.inl ⟨rfl, hfits, fun ⟨hvalid1, _⟩ => hpoly1 hvalid1⟩)

/-- A command that does not pass CHECK takes the error completion with the first error found (R74, R115). -/
theorem checkPhase_of_not_passesCheck {s : State} (hopr : s.opr ≠ .none) (hfails : ¬ s.passesCheck) :
    ∃ code, checkError s = some code ∧ checkPhase s = .next (raiseError code s) := by
  obtain ⟨code, hcode⟩ := Option.ne_none_iff_exists'.1 (mt (checkError_eq_none_iff hopr).1 hfails)
  exact ⟨code, hcode, checkPhase_of_error hopr hcode⟩

/-- The error completion leaves the block idle, with `irq` at IRQ_EN (R115, R118). -/
theorem raiseError_irq_busy (code : ErrCode) (s : State) :
    (raiseError code s).irq = s.irqEn ∧ (raiseError code s).busy = false := by
  simp [State.irq]

/-- Settles O12: CHECK fails with some code, and of the three codes only one agrees with each clause's conditions. -/
theorem checkReportsFirstError : Obligations.CheckReportsFirstError := by
  intro s hrst hphase hoperation
  have hturn : blockTurn s = checkPhase s := by
    rw [blockTurn_of_rst hrst, sequencerStep, hphase]
  have hopr : s.opr ≠ .none := fun hnone => by simp [hnone] at hoperation
  have hraises (hfails : ¬ s.passesCheck) : ∃ code, checkError s = some code ∧ blockTurn s = .next (raiseError code s) :=
    hturn ▸ checkPhase_of_not_passesCheck hopr hfails
  refine ⟨fun hlength => ?_, fun hfits hpoly => ?_, fun hfits hvalid hframe => ?_, fun hfails t ht => ?_⟩
  · obtain ⟨code, hcode, hnext⟩ := hraises fun ⟨hfits, _⟩ => hlength hfits
    obtain ⟨rfl, -⟩ | ⟨-, hfits, -⟩ | ⟨-, hfits, -⟩ := checkError_cases hcode
    · exact hnext
    · exact absurd hfits hlength
    · exact absurd hfits hlength
  · obtain ⟨code, hcode, hnext⟩ := hraises fun ⟨_, hvalid, _⟩ => hpoly hvalid
    obtain ⟨-, hlength⟩ | ⟨rfl, -⟩ | ⟨-, -, hvalid⟩ := checkError_cases hcode
    · exact absurd hfits hlength
    · exact hnext
    · exact absurd hvalid hpoly
  · obtain ⟨code, hcode, hnext⟩ := hraises fun ⟨_, _, hok⟩ => hframe hok
    obtain ⟨-, hlength⟩ | ⟨-, -, hpoly⟩ | ⟨rfl, -⟩ := checkError_cases hcode
    · exact absurd hfits hlength
    · exact absurd hvalid hpoly
    · exact hnext
  · obtain ⟨code, -, hnext⟩ := hraises hfails
    cases hnext.symm.trans ht
    exact raiseError_irq_busy code s

end Sys2Proof.Machine
end

section
/-! The interrupt output (spec/60_exceptions.md R118): the steps that end or start a command, a reset step, and a CTRL write. -/

namespace Sys2Proof.Machine

/-- A step that the host leaves to the block is its turn, on the state with that input taken (R41, R52). -/
theorem step_eq_blockTurn {s : State} (hinputs : s.inputs = [] ∨ ∃ rest, s.inputs = .advance :: rest) :
    ∃ l, step s = blockTurn (s.withInputs l) := by
  obtain hnone | ⟨rest, hadvance⟩ := hinputs
  · exact ⟨s.inputs, (stepGivesTheBlockItsTurn s []).1 hnone⟩
  · exact ⟨rest, (stepGivesTheBlockItsTurn s rest).2 hadvance⟩

/-- Out of reset the block's turn has an effect of the sequencer (R70). -/
theorem turnEffect_of_nextTurn {s t : State} (hturn : s.nextTurn) (h : step s = .next t) :
    ∃ l, TurnEffect (s.withInputs l) t := by
  obtain ⟨hrst, hinputs⟩ := hturn
  obtain ⟨l, hstep⟩ := step_eq_blockTurn hinputs
  rw [hstep, blockTurn_of_rst (s := s.withInputs l) hrst] at h
  exact ⟨l, turnEffect_of_sequencerStep h⟩

/-- A step in reset is the reset event, whether `rst` is being asserted or is held (R126). -/
theorem step_of_nextReset {s : State} (hreset : s.nextReset) : ∃ l, step s = .next (assertReset (s.withInputs l)) := by
  obtain ⟨rest, hinputs⟩ | ⟨hrst, hinputs⟩ := hreset
  · exact ⟨rest, by simp only [step, hinputs, takeInput]⟩
  · obtain ⟨l, hstep⟩ := step_eq_blockTurn hinputs
    have hturn : blockTurn (s.withInputs l) = .next (s.withInputs l).resetBlock := if_pos hrst
    exact ⟨l, by rw [hstep, hturn, assertReset_of_rst (s := s.withInputs l) hrst]⟩

/-- A turn that ends a command leaves `irq` at IRQ_EN (R71, R118). -/
theorem TurnEffect.irq_of_completes {s t : State} (h : TurnEffect s t) (hbusy : s.busy = true) (hidle : t.busy = false) :
    t.irq = s.irqEn := by
  obtain ⟨-, -, hsame⟩ | ⟨-, -, hdone, -⟩ := h.keepsFlags_or_completes
  · exact absurd (hsame.trans hbusy) (by simp [hidle])
  · simp [State.irq, hdone, h.keeps]

/-- The commands that clear DONE lower `irq` (R73, R78, R118). -/
theorem irq_commandEffect_clearsDone {i : Instr} (hi : i = .encode ∨ i = .decode ∨ i = .clear) (s : State) :
    (commandEffect i s).irq = false := by
  obtain rfl | rfl | rfl := hi
  · exact (startCommand_busy_irq .encode s).2
  · exact (startCommand_busy_irq .decode s).2
  · simp [State.irq, commandEffect]

/-- The reset event lowers `irq` (R126, R118). -/
theorem irq_assertReset (s : State) : (assertReset s).irq = false := by
  simp [State.irq]

/-- Settles O37: each clause by the effect of its step on DONE and IRQ_EN. -/
theorem interruptLevel : Obligations.InterruptLevel := by
  intro s
  refine ⟨by simp only [State.irq, Bool.and_eq_true], fun t hturn hbusy hstep hidle => ?_, fun i t hidle hi hexec => ?_,
    fun i op t hidle hi hexec => ?_, fun t hreset hstep => ?_, fun data rest hwrite => ⟨_, step_of_nextWrite hwrite, rfl⟩⟩
  · obtain ⟨l, heffect⟩ := turnEffect_of_nextTurn hturn hstep
    exact heffect.irq_of_completes hbusy hidle
  · cases (exec_of_idle i ((busy_eq_false_iff s).1 hidle)).symm.trans hexec
    exact irq_commandEffect_clearsDone hi s
  · obtain ⟨-, -, hcompletes⟩ := illegalCommandCompletes s op ((busy_eq_false_iff s).1 hidle)
    obtain ⟨-, -, hirq⟩ := hcompletes i t hi hexec
    exact hirq
  · obtain ⟨l, hreset⟩ := step_of_nextReset hreset
    cases hreset.symm.trans hstep
    exact irq_assertReset _

end Sys2Proof.Machine
end

section
/-! Reset (spec/70_reset_and_hazards.md R126 to R128): the state after the reset event, and what the host's accesses and the
block's turn do while `rst` is asserted and just after it. -/

namespace Sys2Proof.Machine

/-! ### The reset values -/

/-- The state right after reset meets the invariant for all parameters in range (R7, R126). -/
theorem State.Inv.resetWith {p : Params} (hparams : p.ok = true) : (State.resetWith p).Inv :=
  .of_idle hparams ⟨rfl, rfl, rfl, rfl, rfl, rfl, rfl⟩ (fun k _ => by simp [State.resetWith, atState]) (Nat.zero_le _) rfl rfl
    rfl

/-- Settles O28: the reference parameters are in range. -/
theorem resetMeetsInvariant : Obligations.ResetMeetsInvariant :=
  .resetWith (by decide)

/-- The reset event makes every path metric INF, with the value 0 (R20, R126). -/
theorem metrics_assertReset (s : State) (k : TrellisState) :
    atState (assertReset s).pmv k = false ∧ atState (assertReset s).pmw k = 0 := by
  simp [atState]

/-- After the reset event every PMk reads 0 (R35, R126). -/
theorem pmWord_assertReset (s : State) (k : TrellisState) : (assertReset s).pmWord k = 0 := by
  obtain ⟨hinf, hzero⟩ := metrics_assertReset s k
  rw [State.pmWord, hinf, hzero]
  rfl

/-- After the reset event the status and result registers, CTRL and LEN read 0 (R126). -/
theorem registerWord_assertReset_eq_zero (s : State) {r : Register}
    (hr : r = .status ∨ r = .ctrl ∨ r = .len ∨ r = .outlen ∨ r = .encState ∨ r = .best ∨ r = .pm0 ∨ r = .pm1 ∨ r = .pm2 ∨
      r = .pm3) : (assertReset s).registerWord r = 0 := by
  have hidle : (assertReset s).busy = false := (busy_eq_false_iff _).2 rfl
  obtain rfl | rfl | rfl | rfl | rfl | rfl | rfl | rfl | rfl | rfl := hr <;>
    simp [State.registerWord, State.statusWord, hidle, errorCode, State.encState, trellisState, pmWord_assertReset]

/-- After the reset event the polynomial registers read the default generators (R126). -/
theorem polynomialWords_assertReset (s : State) :
    (assertReset s).registerWord .poly1 = 0x03313131 ∧ (assertReset s).registerWord .poly2 = 0x03313031 := by
  simp [State.registerWord]

/-- Settles O38: a step in reset is the reset event, which writes every element. -/
theorem resetSetsResetValues : Obligations.ResetSetsResetValues := by
  intro s hreset
  obtain ⟨l, hstep⟩ := step_of_nextReset hreset
  obtain ⟨hpoly1, hpoly2⟩ := polynomialWords_assertReset (s.withInputs l)
  exact ⟨_, hstep, rfl, rfl, rfl, rfl, rfl, rfl, rfl, rfl, rfl, hpoly1, hpoly2, rfl, rfl, rfl, rfl, rfl, metrics_assertReset _,
    rfl, rfl, fun _ => registerWord_assertReset_eq_zero _, rfl, fun hparams => toNat_registerWord_nmax hparams, rfl,
    irq_assertReset _⟩

/-! ### While `rst` is asserted, and after it -/

/-- While `rst` is asserted an access is answered OKAY with the data 0 and has no effect (R128). -/
theorem busAccess_of_rst {s : State} (hrst : s.rst = true) (a : Access) : busAccess a s = .next (s.respond .okay 0) :=
  if_pos hrst

/-- A step that takes the release of `rst` changes nothing else (R128). -/
theorem step_of_release {s : State} {rest : List HostInput} (hinputs : s.inputs = .rst false :: rest) :
    step s = .next { s with inputs := rest, rst := false } := by
  simp only [step, hinputs, takeInput]
  rfl

/-- An idle block's turn out of reset changes nothing (R70, R128). -/
theorem blockTurn_of_idle {s : State} (hrst : s.rst = false) (hidle : s.phase = .idle) : blockTurn s = .next s := by
  rw [blockTurn_of_rst hrst, sequencerStep, hidle]

/-- Settles O39: an access in reset, the release of reset and an idle turn each have their own lemma. -/
theorem accessInResetHasNoEffect : Obligations.AccessInResetHasNoEffect := by
  refine ⟨fun s a rest hrst hinputs => ?_, fun s rest hinv hrst hinputs => ?_, fun s => blockTurn_of_idle⟩
  · exact ⟨_, 0, (step_of_access hinputs).trans (busAccess_of_rst (s := s.withInputs rest) hrst a), rfl, fun _ => rfl⟩
  · exact ⟨step_of_release hinputs, hinv.idle_of_rst hrst⟩

end Sys2Proof.Machine
end
